-- ==== Sys2Proof/Word.lean ====
section
/-! DEFINITION. The machine's two value types: a Byte (spec 10_state.md rule R1) and an Address (rule R2). Both wrap,
which is what bit vectors of the two widths do. -/

namespace Sys2Proof

/-- An "integer in [0,255]"; arithmetic on it wraps modulo 256 (rule R1). -/
abbrev Byte := BitVec 8

/-- An "integer in [0,65535]"; address arithmetic wraps modulo 65536 (rule R2). -/
abbrev Addr := BitVec 16

end Sys2Proof
end

