-- ==== Sys2Proof/Syntax.lean ====
section
/-! DEFINITION. The instructions as syntax: one constructor of `Instr` for each of the 151 rows of
spec/opcode_table.json, with the operand assembled from the operand bytes (spec 30_encoding.md rule R42). Beside it the
56 mnemonics (rule R44), the 13 addressing modes (rules R62 to R74) and the operand of each mode. -/

namespace Sys2Proof

/-- The 56 mnemonics, in the order of the table of rule R44. -/
inductive Mnemonic where
  | ADC | SBC | CMP | CPX | CPY
  | ASL | LSR | ROL | ROR
  | BIT | AND | ORA | EOR
  | INC | DEC | INX | INY | DEX | DEY
  | BCC | BCS | BEQ | BNE | BMI | BPL | BVC | BVS
  | JMP | JSR | RTS
  | PHA | PHP | PLA | PLP | BRK | RTI
  | SEC | CLC | SED | CLD | SEI | CLI | CLV | NOP
  | TAX | TAY | TXA | TYA | TSX | TXS
  | LDA | LDX | LDY
  | STA | STX | STY
deriving DecidableEq, Repr

/-- The 13 addressing modes (spec 40_cycle_and_addressing.md rules R62 to R74). -/
inductive Mode where
  | implied | accumulator | immediate
  | zeroPage | zeroPageX | zeroPageY
  | absolute | absoluteX | absoluteY
  | indirect | indexedIndirect | indirectIndexed
  | relative
deriving DecidableEq, Repr

/-- An operand in each addressing mode (rule R42): a data byte, a zero-page address, a 16-bit address, or the signed
offset that a branch's operand byte stands for. -/
inductive Operand where
  | implied
  | accumulator
  | immediate (v : Byte)
  | zeroPage (z : Byte)
  | zeroPageX (z : Byte)
  | zeroPageY (z : Byte)
  | absolute (w : Addr)
  | absoluteX (w : Addr)
  | absoluteY (w : Addr)
  | indirect (w : Addr)
  | indexedIndirect (z : Byte)
  | indirectIndexed (z : Byte)
  | relative (d : Int)
deriving DecidableEq, Repr

/-- The 151 legal instructions (rule R44). The operand of a branch is its signed offset (rules R42 and R49). -/
inductive Instr where
  -- arithmetic and compare
  /-- 69 `ADC #$hh`: rule R80, immediate (R64). -/
  | adcImm (v : Byte)
  /-- 65 `ADC $hh`: rule R80, zeroPage (R65). -/
  | adcZp (z : Byte)
  /-- 75 `ADC $hh,X`: rule R80, zeroPageX (R66). -/
  | adcZpX (z : Byte)
  /-- 6D `ADC $hhhh`: rule R80, absolute (R68). -/
  | adcAbs (w : Addr)
  /-- 7D `ADC $hhhh,X`: rule R80, absoluteX (R69). -/
  | adcAbsX (w : Addr)
  /-- 79 `ADC $hhhh,Y`: rule R80, absoluteY (R70). -/
  | adcAbsY (w : Addr)
  /-- 61 `ADC ($hh,X)`: rule R80, indexedIndirect (R73). -/
  | adcIndX (z : Byte)
  /-- 71 `ADC ($hh),Y`: rule R80, indirectIndexed (R74). -/
  | adcIndY (z : Byte)
  /-- E9 `SBC #$hh`: rule R81, immediate (R64). -/
  | sbcImm (v : Byte)
  /-- E5 `SBC $hh`: rule R81, zeroPage (R65). -/
  | sbcZp (z : Byte)
  /-- F5 `SBC $hh,X`: rule R81, zeroPageX (R66). -/
  | sbcZpX (z : Byte)
  /-- ED `SBC $hhhh`: rule R81, absolute (R68). -/
  | sbcAbs (w : Addr)
  /-- FD `SBC $hhhh,X`: rule R81, absoluteX (R69). -/
  | sbcAbsX (w : Addr)
  /-- F9 `SBC $hhhh,Y`: rule R81, absoluteY (R70). -/
  | sbcAbsY (w : Addr)
  /-- E1 `SBC ($hh,X)`: rule R81, indexedIndirect (R73). -/
  | sbcIndX (z : Byte)
  /-- F1 `SBC ($hh),Y`: rule R81, indirectIndexed (R74). -/
  | sbcIndY (z : Byte)
  /-- C9 `CMP #$hh`: rule R82, immediate (R64). -/
  | cmpImm (v : Byte)
  /-- C5 `CMP $hh`: rule R82, zeroPage (R65). -/
  | cmpZp (z : Byte)
  /-- D5 `CMP $hh,X`: rule R82, zeroPageX (R66). -/
  | cmpZpX (z : Byte)
  /-- CD `CMP $hhhh`: rule R82, absolute (R68). -/
  | cmpAbs (w : Addr)
  /-- DD `CMP $hhhh,X`: rule R82, absoluteX (R69). -/
  | cmpAbsX (w : Addr)
  /-- D9 `CMP $hhhh,Y`: rule R82, absoluteY (R70). -/
  | cmpAbsY (w : Addr)
  /-- C1 `CMP ($hh,X)`: rule R82, indexedIndirect (R73). -/
  | cmpIndX (z : Byte)
  /-- D1 `CMP ($hh),Y`: rule R82, indirectIndexed (R74). -/
  | cmpIndY (z : Byte)
  /-- E0 `CPX #$hh`: rule R83, immediate (R64). -/
  | cpxImm (v : Byte)
  /-- E4 `CPX $hh`: rule R83, zeroPage (R65). -/
  | cpxZp (z : Byte)
  /-- EC `CPX $hhhh`: rule R83, absolute (R68). -/
  | cpxAbs (w : Addr)
  /-- C0 `CPY #$hh`: rule R84, immediate (R64). -/
  | cpyImm (v : Byte)
  /-- C4 `CPY $hh`: rule R84, zeroPage (R65). -/
  | cpyZp (z : Byte)
  /-- CC `CPY $hhhh`: rule R84, absolute (R68). -/
  | cpyAbs (w : Addr)
  -- shifts and rotates
  /-- 0A `ASL A`: rule R91, accumulator (R63). -/
  | aslAcc
  /-- 06 `ASL $hh`: rule R90, zeroPage (R65). -/
  | aslZp (z : Byte)
  /-- 16 `ASL $hh,X`: rule R90, zeroPageX (R66). -/
  | aslZpX (z : Byte)
  /-- 0E `ASL $hhhh`: rule R90, absolute (R68). -/
  | aslAbs (w : Addr)
  /-- 1E `ASL $hhhh,X`: rule R90, absoluteX (R69). -/
  | aslAbsX (w : Addr)
  /-- 4A `LSR A`: rule R93, accumulator (R63). -/
  | lsrAcc
  /-- 46 `LSR $hh`: rule R92, zeroPage (R65). -/
  | lsrZp (z : Byte)
  /-- 56 `LSR $hh,X`: rule R92, zeroPageX (R66). -/
  | lsrZpX (z : Byte)
  /-- 4E `LSR $hhhh`: rule R92, absolute (R68). -/
  | lsrAbs (w : Addr)
  /-- 5E `LSR $hhhh,X`: rule R92, absoluteX (R69). -/
  | lsrAbsX (w : Addr)
  /-- 2A `ROL A`: rule R95, accumulator (R63). -/
  | rolAcc
  /-- 26 `ROL $hh`: rule R94, zeroPage (R65). -/
  | rolZp (z : Byte)
  /-- 36 `ROL $hh,X`: rule R94, zeroPageX (R66). -/
  | rolZpX (z : Byte)
  /-- 2E `ROL $hhhh`: rule R94, absolute (R68). -/
  | rolAbs (w : Addr)
  /-- 3E `ROL $hhhh,X`: rule R94, absoluteX (R69). -/
  | rolAbsX (w : Addr)
  /-- 6A `ROR A`: rule R97, accumulator (R63). -/
  | rorAcc
  /-- 66 `ROR $hh`: rule R96, zeroPage (R65). -/
  | rorZp (z : Byte)
  /-- 76 `ROR $hh,X`: rule R96, zeroPageX (R66). -/
  | rorZpX (z : Byte)
  /-- 6E `ROR $hhhh`: rule R96, absolute (R68). -/
  | rorAbs (w : Addr)
  /-- 7E `ROR $hhhh,X`: rule R96, absoluteX (R69). -/
  | rorAbsX (w : Addr)
  -- bit test and logic
  /-- 24 `BIT $hh`: rule R98, zeroPage (R65). -/
  | bitZp (z : Byte)
  /-- 2C `BIT $hhhh`: rule R98, absolute (R68). -/
  | bitAbs (w : Addr)
  /-- 29 `AND #$hh`: rule R99, immediate (R64). -/
  | andImm (v : Byte)
  /-- 25 `AND $hh`: rule R99, zeroPage (R65). -/
  | andZp (z : Byte)
  /-- 35 `AND $hh,X`: rule R99, zeroPageX (R66). -/
  | andZpX (z : Byte)
  /-- 2D `AND $hhhh`: rule R99, absolute (R68). -/
  | andAbs (w : Addr)
  /-- 3D `AND $hhhh,X`: rule R99, absoluteX (R69). -/
  | andAbsX (w : Addr)
  /-- 39 `AND $hhhh,Y`: rule R99, absoluteY (R70). -/
  | andAbsY (w : Addr)
  /-- 21 `AND ($hh,X)`: rule R99, indexedIndirect (R73). -/
  | andIndX (z : Byte)
  /-- 31 `AND ($hh),Y`: rule R99, indirectIndexed (R74). -/
  | andIndY (z : Byte)
  /-- 09 `ORA #$hh`: rule R100, immediate (R64). -/
  | oraImm (v : Byte)
  /-- 05 `ORA $hh`: rule R100, zeroPage (R65). -/
  | oraZp (z : Byte)
  /-- 15 `ORA $hh,X`: rule R100, zeroPageX (R66). -/
  | oraZpX (z : Byte)
  /-- 0D `ORA $hhhh`: rule R100, absolute (R68). -/
  | oraAbs (w : Addr)
  /-- 1D `ORA $hhhh,X`: rule R100, absoluteX (R69). -/
  | oraAbsX (w : Addr)
  /-- 19 `ORA $hhhh,Y`: rule R100, absoluteY (R70). -/
  | oraAbsY (w : Addr)
  /-- 01 `ORA ($hh,X)`: rule R100, indexedIndirect (R73). -/
  | oraIndX (z : Byte)
  /-- 11 `ORA ($hh),Y`: rule R100, indirectIndexed (R74). -/
  | oraIndY (z : Byte)
  /-- 49 `EOR #$hh`: rule R101, immediate (R64). -/
  | eorImm (v : Byte)
  /-- 45 `EOR $hh`: rule R101, zeroPage (R65). -/
  | eorZp (z : Byte)
  /-- 55 `EOR $hh,X`: rule R101, zeroPageX (R66). -/
  | eorZpX (z : Byte)
  /-- 4D `EOR $hhhh`: rule R101, absolute (R68). -/
  | eorAbs (w : Addr)
  /-- 5D `EOR $hhhh,X`: rule R101, absoluteX (R69). -/
  | eorAbsX (w : Addr)
  /-- 59 `EOR $hhhh,Y`: rule R101, absoluteY (R70). -/
  | eorAbsY (w : Addr)
  /-- 41 `EOR ($hh,X)`: rule R101, indexedIndirect (R73). -/
  | eorIndX (z : Byte)
  /-- 51 `EOR ($hh),Y`: rule R101, indirectIndexed (R74). -/
  | eorIndY (z : Byte)
  -- increments and decrements
  /-- E6 `INC $hh`: rule R102, zeroPage (R65). -/
  | incZp (z : Byte)
  /-- F6 `INC $hh,X`: rule R102, zeroPageX (R66). -/
  | incZpX (z : Byte)
  /-- EE `INC $hhhh`: rule R102, absolute (R68). -/
  | incAbs (w : Addr)
  /-- FE `INC $hhhh,X`: rule R102, absoluteX (R69). -/
  | incAbsX (w : Addr)
  /-- C6 `DEC $hh`: rule R103, zeroPage (R65). -/
  | decZp (z : Byte)
  /-- D6 `DEC $hh,X`: rule R103, zeroPageX (R66). -/
  | decZpX (z : Byte)
  /-- CE `DEC $hhhh`: rule R103, absolute (R68). -/
  | decAbs (w : Addr)
  /-- DE `DEC $hhhh,X`: rule R103, absoluteX (R69). -/
  | decAbsX (w : Addr)
  /-- E8 `INX`: rule R104, implied (R62). -/
  | inx
  /-- C8 `INY`: rule R105, implied (R62). -/
  | iny
  /-- CA `DEX`: rule R106, implied (R62). -/
  | dex
  /-- 88 `DEY`: rule R107, implied (R62). -/
  | dey
  -- branches
  /-- 90 `BCC d`: rule R111, relative (R71). -/
  | bcc (d : Int)
  /-- B0 `BCS d`: rule R112, relative (R71). -/
  | bcs (d : Int)
  /-- F0 `BEQ d`: rule R113, relative (R71). -/
  | beq (d : Int)
  /-- D0 `BNE d`: rule R114, relative (R71). -/
  | bne (d : Int)
  /-- 30 `BMI d`: rule R115, relative (R71). -/
  | bmi (d : Int)
  /-- 10 `BPL d`: rule R116, relative (R71). -/
  | bpl (d : Int)
  /-- 50 `BVC d`: rule R117, relative (R71). -/
  | bvc (d : Int)
  /-- 70 `BVS d`: rule R118, relative (R71). -/
  | bvs (d : Int)
  -- jumps and subroutine linkage
  /-- 4C `JMP $hhhh`: rule R119, absolute (R68). -/
  | jmpAbs (w : Addr)
  /-- 6C `JMP ($hhhh)`: rule R119, indirect (R72). -/
  | jmpInd (w : Addr)
  /-- 20 `JSR $hhhh`: rule R120, absolute (R68). -/
  | jsr (w : Addr)
  /-- 60 `RTS`: rule R121, implied (R62). -/
  | rts
  -- stack and system
  /-- 48 `PHA`: rule R125, implied (R62). -/
  | pha
  /-- 08 `PHP`: rule R126, implied (R62). -/
  | php
  /-- 68 `PLA`: rule R127, implied (R62). -/
  | pla
  /-- 28 `PLP`: rule R128, implied (R62). -/
  | plp
  /-- 00 `BRK`: rule R129, implied (R62). -/
  | brk
  /-- 40 `RTI`: rule R130, implied (R62). -/
  | rti
  -- flag instructions and NOP
  /-- 38 `SEC`: rule R135, implied (R62). -/
  | sec
  /-- 18 `CLC`: rule R136, implied (R62). -/
  | clc
  /-- F8 `SED`: rule R137, implied (R62). -/
  | sed
  /-- D8 `CLD`: rule R138, implied (R62). -/
  | cld
  /-- 78 `SEI`: rule R139, implied (R62). -/
  | sei
  /-- 58 `CLI`: rule R140, implied (R62). -/
  | cli
  /-- B8 `CLV`: rule R141, implied (R62). -/
  | clv
  /-- EA `NOP`: rule R142, implied (R62). -/
  | nop
  -- register transfers
  /-- AA `TAX`: rule R145, implied (R62). -/
  | tax
  /-- A8 `TAY`: rule R146, implied (R62). -/
  | tay
  /-- 8A `TXA`: rule R147, implied (R62). -/
  | txa
  /-- 98 `TYA`: rule R148, implied (R62). -/
  | tya
  /-- BA `TSX`: rule R149, implied (R62). -/
  | tsx
  /-- 9A `TXS`: rule R150, implied (R62). -/
  | txs
  -- loads
  /-- A9 `LDA #$hh`: rule R151, immediate (R64). -/
  | ldaImm (v : Byte)
  /-- A5 `LDA $hh`: rule R151, zeroPage (R65). -/
  | ldaZp (z : Byte)
  /-- B5 `LDA $hh,X`: rule R151, zeroPageX (R66). -/
  | ldaZpX (z : Byte)
  /-- AD `LDA $hhhh`: rule R151, absolute (R68). -/
  | ldaAbs (w : Addr)
  /-- BD `LDA $hhhh,X`: rule R151, absoluteX (R69). -/
  | ldaAbsX (w : Addr)
  /-- B9 `LDA $hhhh,Y`: rule R151, absoluteY (R70). -/
  | ldaAbsY (w : Addr)
  /-- A1 `LDA ($hh,X)`: rule R151, indexedIndirect (R73). -/
  | ldaIndX (z : Byte)
  /-- B1 `LDA ($hh),Y`: rule R151, indirectIndexed (R74). -/
  | ldaIndY (z : Byte)
  /-- A2 `LDX #$hh`: rule R152, immediate (R64). -/
  | ldxImm (v : Byte)
  /-- A6 `LDX $hh`: rule R152, zeroPage (R65). -/
  | ldxZp (z : Byte)
  /-- B6 `LDX $hh,Y`: rule R152, zeroPageY (R67). -/
  | ldxZpY (z : Byte)
  /-- AE `LDX $hhhh`: rule R152, absolute (R68). -/
  | ldxAbs (w : Addr)
  /-- BE `LDX $hhhh,Y`: rule R152, absoluteY (R70). -/
  | ldxAbsY (w : Addr)
  /-- A0 `LDY #$hh`: rule R153, immediate (R64). -/
  | ldyImm (v : Byte)
  /-- A4 `LDY $hh`: rule R153, zeroPage (R65). -/
  | ldyZp (z : Byte)
  /-- B4 `LDY $hh,X`: rule R153, zeroPageX (R66). -/
  | ldyZpX (z : Byte)
  /-- AC `LDY $hhhh`: rule R153, absolute (R68). -/
  | ldyAbs (w : Addr)
  /-- BC `LDY $hhhh,X`: rule R153, absoluteX (R69). -/
  | ldyAbsX (w : Addr)
  -- stores
  /-- 85 `STA $hh`: rule R154, zeroPage (R65). -/
  | staZp (z : Byte)
  /-- 95 `STA $hh,X`: rule R154, zeroPageX (R66). -/
  | staZpX (z : Byte)
  /-- 8D `STA $hhhh`: rule R154, absolute (R68). -/
  | staAbs (w : Addr)
  /-- 9D `STA $hhhh,X`: rule R154, absoluteX (R69). -/
  | staAbsX (w : Addr)
  /-- 99 `STA $hhhh,Y`: rule R154, absoluteY (R70). -/
  | staAbsY (w : Addr)
  /-- 81 `STA ($hh,X)`: rule R154, indexedIndirect (R73). -/
  | staIndX (z : Byte)
  /-- 91 `STA ($hh),Y`: rule R154, indirectIndexed (R74). -/
  | staIndY (z : Byte)
  /-- 86 `STX $hh`: rule R155, zeroPage (R65). -/
  | stxZp (z : Byte)
  /-- 96 `STX $hh,Y`: rule R155, zeroPageY (R67). -/
  | stxZpY (z : Byte)
  /-- 8E `STX $hhhh`: rule R155, absolute (R68). -/
  | stxAbs (w : Addr)
  /-- 84 `STY $hh`: rule R156, zeroPage (R65). -/
  | styZp (z : Byte)
  /-- 94 `STY $hh,X`: rule R156, zeroPageX (R66). -/
  | styZpX (z : Byte)
  /-- 8C `STY $hhhh`: rule R156, absolute (R68). -/
  | styAbs (w : Addr)
deriving DecidableEq, Repr

end Sys2Proof
end

