-- ==== Sys2Proof/WellFormed.lean ====
section
/-! DEFINITION. Which instructions an encoding exists for. Every value of every operand byte is legal (spec
30_encoding.md rule R46, 40_cycle_and_addressing.md rule R76), and the types of the operands say so for all modes but
one: a branch's offset is an integer, and only −128 to 127 has an operand byte (rules R42 and R49; log entry 22). -/

namespace Sys2Proof

/-- The range of a branch offset (rules R49 and R71). -/
def offsetInRange (d : Int) : Bool := decide (-128 ≤ d) && decide (d ≤ 127)

/-- An instruction is well formed when its operand fits its operand bytes. -/
def Instr.wf (i : Instr) : Bool :=
  match i with
  | .bcc d  | .bcs d  | .beq d  | .bne d  | .bmi d  | .bpl d  | .bvc d  | .bvs d => offsetInRange d
  | .adcImm _ | .adcZp _ | .adcZpX _ | .adcAbs _ | .adcAbsX _ | .adcAbsY _ | .adcIndX _ | .adcIndY _ | .sbcImm _
  | .sbcZp _ | .sbcZpX _ | .sbcAbs _ | .sbcAbsX _ | .sbcAbsY _ | .sbcIndX _ | .sbcIndY _ | .cmpImm _ | .cmpZp _
  | .cmpZpX _ | .cmpAbs _ | .cmpAbsX _ | .cmpAbsY _ | .cmpIndX _ | .cmpIndY _ | .cpxImm _ | .cpxZp _ | .cpxAbs _
  | .cpyImm _ | .cpyZp _ | .cpyAbs _ | .aslAcc | .aslZp _ | .aslZpX _ | .aslAbs _ | .aslAbsX _ | .lsrAcc | .lsrZp _
  | .lsrZpX _ | .lsrAbs _ | .lsrAbsX _ | .rolAcc | .rolZp _ | .rolZpX _ | .rolAbs _ | .rolAbsX _ | .rorAcc
  | .rorZp _ | .rorZpX _ | .rorAbs _ | .rorAbsX _ | .bitZp _ | .bitAbs _ | .andImm _ | .andZp _ | .andZpX _
  | .andAbs _ | .andAbsX _ | .andAbsY _ | .andIndX _ | .andIndY _ | .oraImm _ | .oraZp _ | .oraZpX _ | .oraAbs _
  | .oraAbsX _ | .oraAbsY _ | .oraIndX _ | .oraIndY _ | .eorImm _ | .eorZp _ | .eorZpX _ | .eorAbs _ | .eorAbsX _
  | .eorAbsY _ | .eorIndX _ | .eorIndY _ | .incZp _ | .incZpX _ | .incAbs _ | .incAbsX _ | .decZp _ | .decZpX _
  | .decAbs _ | .decAbsX _ | .inx | .iny | .dex | .dey | .jmpAbs _ | .jmpInd _ | .jsr _ | .rts | .pha | .php | .pla
  | .plp | .brk | .rti | .sec | .clc | .sed | .cld | .sei | .cli | .clv | .nop | .tax | .tay | .txa | .tya | .tsx
  | .txs | .ldaImm _ | .ldaZp _ | .ldaZpX _ | .ldaAbs _ | .ldaAbsX _ | .ldaAbsY _ | .ldaIndX _ | .ldaIndY _
  | .ldxImm _ | .ldxZp _ | .ldxZpY _ | .ldxAbs _ | .ldxAbsY _ | .ldyImm _ | .ldyZp _ | .ldyZpX _ | .ldyAbs _
  | .ldyAbsX _ | .staZp _ | .staZpX _ | .staAbs _ | .staAbsX _ | .staAbsY _ | .staIndX _ | .staIndY _ | .stxZp _
  | .stxZpY _ | .stxAbs _ | .styZp _ | .styZpX _ | .styAbs _ => true

end Sys2Proof
end

