-- ==== Sys2Proof/Decode.lean ====
section
/-! DEFINITION. The instruction table of spec 30_encoding.md rule R44 as data, the decoder that reads it (rules R40 to
R46), and the encoder, written separately from the printed table. Opcode bytes other than BRK's are the spec's own
decision (92_eei_decisions.md D2; log entry 7). -/

namespace Sys2Proof

/-! ## Bytes and 16-bit words -/

/-- `{hi, lo}`, the 16-bit value whose low byte comes first in memory (spec 20_memory.md rule R23). -/
def wordOf (lo hi : Byte) : Addr := hi ++ lo

/-- `w[7:0]`. -/
def loByte (w : Addr) : Byte := w.extractLsb' 0 8

/-- `w[15:8]`. -/
def hiByte (w : Addr) : Byte := w.extractLsb' 8 8

/-- `sext_8(b)`: the signed offset a branch's operand byte stands for (rule R42). -/
def offsetOf (b : Byte) : Int := b.toInt

/-- The operand byte of a signed offset, `d & 0xFF` (rule R51). -/
def offsetByte (d : Int) : Byte := BitVec.ofInt 8 d

/-! ## The instruction table -/

/-- `len(mode)`, the number of operand bytes (rule R41). -/
def Mode.len (m : Mode) : Nat :=
  match m with
  | .implied | .accumulator => 0
  | .immediate | .zeroPage | .zeroPageX | .zeroPageY | .indexedIndirect | .indirectIndexed | .relative => 1
  | .absolute | .absoluteX | .absoluteY | .indirect => 2

/-- How an instruction is made of its operand bytes: the three formats of rule R40, with the two readings of a single
operand byte (rule R42). -/
inductive Form where
  | none (i : Instr)
  | byte (f : Byte → Instr)
  | offset (f : Int → Instr)
  | word (f : Addr → Instr)

/-- One row of the table of rule R44. -/
structure Row where
  opcode : Byte
  mnemonic : Mnemonic
  mode : Mode
  form : Form

/-- The rows of the arithmetic and compare (rule R44). -/
def rowsArithmetic : List Row :=
  [ ⟨0x69#8, .ADC, .immediate, .byte .adcImm⟩
  , ⟨0x65#8, .ADC, .zeroPage, .byte .adcZp⟩
  , ⟨0x75#8, .ADC, .zeroPageX, .byte .adcZpX⟩
  , ⟨0x6D#8, .ADC, .absolute, .word .adcAbs⟩
  , ⟨0x7D#8, .ADC, .absoluteX, .word .adcAbsX⟩
  , ⟨0x79#8, .ADC, .absoluteY, .word .adcAbsY⟩
  , ⟨0x61#8, .ADC, .indexedIndirect, .byte .adcIndX⟩
  , ⟨0x71#8, .ADC, .indirectIndexed, .byte .adcIndY⟩
  , ⟨0xE9#8, .SBC, .immediate, .byte .sbcImm⟩
  , ⟨0xE5#8, .SBC, .zeroPage, .byte .sbcZp⟩
  , ⟨0xF5#8, .SBC, .zeroPageX, .byte .sbcZpX⟩
  , ⟨0xED#8, .SBC, .absolute, .word .sbcAbs⟩
  , ⟨0xFD#8, .SBC, .absoluteX, .word .sbcAbsX⟩
  , ⟨0xF9#8, .SBC, .absoluteY, .word .sbcAbsY⟩
  , ⟨0xE1#8, .SBC, .indexedIndirect, .byte .sbcIndX⟩
  , ⟨0xF1#8, .SBC, .indirectIndexed, .byte .sbcIndY⟩
  , ⟨0xC9#8, .CMP, .immediate, .byte .cmpImm⟩
  , ⟨0xC5#8, .CMP, .zeroPage, .byte .cmpZp⟩
  , ⟨0xD5#8, .CMP, .zeroPageX, .byte .cmpZpX⟩
  , ⟨0xCD#8, .CMP, .absolute, .word .cmpAbs⟩
  , ⟨0xDD#8, .CMP, .absoluteX, .word .cmpAbsX⟩
  , ⟨0xD9#8, .CMP, .absoluteY, .word .cmpAbsY⟩
  , ⟨0xC1#8, .CMP, .indexedIndirect, .byte .cmpIndX⟩
  , ⟨0xD1#8, .CMP, .indirectIndexed, .byte .cmpIndY⟩
  , ⟨0xE0#8, .CPX, .immediate, .byte .cpxImm⟩
  , ⟨0xE4#8, .CPX, .zeroPage, .byte .cpxZp⟩
  , ⟨0xEC#8, .CPX, .absolute, .word .cpxAbs⟩
  , ⟨0xC0#8, .CPY, .immediate, .byte .cpyImm⟩
  , ⟨0xC4#8, .CPY, .zeroPage, .byte .cpyZp⟩
  , ⟨0xCC#8, .CPY, .absolute, .word .cpyAbs⟩ ]

/-- The rows of the shifts and rotates (rule R44). -/
def rowsShift : List Row :=
  [ ⟨0x0A#8, .ASL, .accumulator, .none .aslAcc⟩
  , ⟨0x06#8, .ASL, .zeroPage, .byte .aslZp⟩
  , ⟨0x16#8, .ASL, .zeroPageX, .byte .aslZpX⟩
  , ⟨0x0E#8, .ASL, .absolute, .word .aslAbs⟩
  , ⟨0x1E#8, .ASL, .absoluteX, .word .aslAbsX⟩
  , ⟨0x4A#8, .LSR, .accumulator, .none .lsrAcc⟩
  , ⟨0x46#8, .LSR, .zeroPage, .byte .lsrZp⟩
  , ⟨0x56#8, .LSR, .zeroPageX, .byte .lsrZpX⟩
  , ⟨0x4E#8, .LSR, .absolute, .word .lsrAbs⟩
  , ⟨0x5E#8, .LSR, .absoluteX, .word .lsrAbsX⟩
  , ⟨0x2A#8, .ROL, .accumulator, .none .rolAcc⟩
  , ⟨0x26#8, .ROL, .zeroPage, .byte .rolZp⟩
  , ⟨0x36#8, .ROL, .zeroPageX, .byte .rolZpX⟩
  , ⟨0x2E#8, .ROL, .absolute, .word .rolAbs⟩
  , ⟨0x3E#8, .ROL, .absoluteX, .word .rolAbsX⟩
  , ⟨0x6A#8, .ROR, .accumulator, .none .rorAcc⟩
  , ⟨0x66#8, .ROR, .zeroPage, .byte .rorZp⟩
  , ⟨0x76#8, .ROR, .zeroPageX, .byte .rorZpX⟩
  , ⟨0x6E#8, .ROR, .absolute, .word .rorAbs⟩
  , ⟨0x7E#8, .ROR, .absoluteX, .word .rorAbsX⟩ ]

/-- The rows of the bit test and logic (rule R44). -/
def rowsLogic : List Row :=
  [ ⟨0x24#8, .BIT, .zeroPage, .byte .bitZp⟩
  , ⟨0x2C#8, .BIT, .absolute, .word .bitAbs⟩
  , ⟨0x29#8, .AND, .immediate, .byte .andImm⟩
  , ⟨0x25#8, .AND, .zeroPage, .byte .andZp⟩
  , ⟨0x35#8, .AND, .zeroPageX, .byte .andZpX⟩
  , ⟨0x2D#8, .AND, .absolute, .word .andAbs⟩
  , ⟨0x3D#8, .AND, .absoluteX, .word .andAbsX⟩
  , ⟨0x39#8, .AND, .absoluteY, .word .andAbsY⟩
  , ⟨0x21#8, .AND, .indexedIndirect, .byte .andIndX⟩
  , ⟨0x31#8, .AND, .indirectIndexed, .byte .andIndY⟩
  , ⟨0x09#8, .ORA, .immediate, .byte .oraImm⟩
  , ⟨0x05#8, .ORA, .zeroPage, .byte .oraZp⟩
  , ⟨0x15#8, .ORA, .zeroPageX, .byte .oraZpX⟩
  , ⟨0x0D#8, .ORA, .absolute, .word .oraAbs⟩
  , ⟨0x1D#8, .ORA, .absoluteX, .word .oraAbsX⟩
  , ⟨0x19#8, .ORA, .absoluteY, .word .oraAbsY⟩
  , ⟨0x01#8, .ORA, .indexedIndirect, .byte .oraIndX⟩
  , ⟨0x11#8, .ORA, .indirectIndexed, .byte .oraIndY⟩
  , ⟨0x49#8, .EOR, .immediate, .byte .eorImm⟩
  , ⟨0x45#8, .EOR, .zeroPage, .byte .eorZp⟩
  , ⟨0x55#8, .EOR, .zeroPageX, .byte .eorZpX⟩
  , ⟨0x4D#8, .EOR, .absolute, .word .eorAbs⟩
  , ⟨0x5D#8, .EOR, .absoluteX, .word .eorAbsX⟩
  , ⟨0x59#8, .EOR, .absoluteY, .word .eorAbsY⟩
  , ⟨0x41#8, .EOR, .indexedIndirect, .byte .eorIndX⟩
  , ⟨0x51#8, .EOR, .indirectIndexed, .byte .eorIndY⟩ ]

/-- The rows of the increments and decrements (rule R44). -/
def rowsIncDec : List Row :=
  [ ⟨0xE6#8, .INC, .zeroPage, .byte .incZp⟩
  , ⟨0xF6#8, .INC, .zeroPageX, .byte .incZpX⟩
  , ⟨0xEE#8, .INC, .absolute, .word .incAbs⟩
  , ⟨0xFE#8, .INC, .absoluteX, .word .incAbsX⟩
  , ⟨0xC6#8, .DEC, .zeroPage, .byte .decZp⟩
  , ⟨0xD6#8, .DEC, .zeroPageX, .byte .decZpX⟩
  , ⟨0xCE#8, .DEC, .absolute, .word .decAbs⟩
  , ⟨0xDE#8, .DEC, .absoluteX, .word .decAbsX⟩
  , ⟨0xE8#8, .INX, .implied, .none .inx⟩
  , ⟨0xC8#8, .INY, .implied, .none .iny⟩
  , ⟨0xCA#8, .DEX, .implied, .none .dex⟩
  , ⟨0x88#8, .DEY, .implied, .none .dey⟩ ]

/-- The rows of the branches (rule R44). -/
def rowsBranch : List Row :=
  [ ⟨0x90#8, .BCC, .relative, .offset .bcc⟩
  , ⟨0xB0#8, .BCS, .relative, .offset .bcs⟩
  , ⟨0xF0#8, .BEQ, .relative, .offset .beq⟩
  , ⟨0xD0#8, .BNE, .relative, .offset .bne⟩
  , ⟨0x30#8, .BMI, .relative, .offset .bmi⟩
  , ⟨0x10#8, .BPL, .relative, .offset .bpl⟩
  , ⟨0x50#8, .BVC, .relative, .offset .bvc⟩
  , ⟨0x70#8, .BVS, .relative, .offset .bvs⟩ ]

/-- The rows of the jumps and subroutine linkage (rule R44). -/
def rowsJump : List Row :=
  [ ⟨0x4C#8, .JMP, .absolute, .word .jmpAbs⟩
  , ⟨0x6C#8, .JMP, .indirect, .word .jmpInd⟩
  , ⟨0x20#8, .JSR, .absolute, .word .jsr⟩
  , ⟨0x60#8, .RTS, .implied, .none .rts⟩ ]

/-- The rows of the stack and system (rule R44). -/
def rowsStack : List Row :=
  [ ⟨0x48#8, .PHA, .implied, .none .pha⟩
  , ⟨0x08#8, .PHP, .implied, .none .php⟩
  , ⟨0x68#8, .PLA, .implied, .none .pla⟩
  , ⟨0x28#8, .PLP, .implied, .none .plp⟩
  , ⟨0x00#8, .BRK, .implied, .none .brk⟩
  , ⟨0x40#8, .RTI, .implied, .none .rti⟩ ]

/-- The rows of the flag instructions and NOP (rule R44). -/
def rowsFlag : List Row :=
  [ ⟨0x38#8, .SEC, .implied, .none .sec⟩
  , ⟨0x18#8, .CLC, .implied, .none .clc⟩
  , ⟨0xF8#8, .SED, .implied, .none .sed⟩
  , ⟨0xD8#8, .CLD, .implied, .none .cld⟩
  , ⟨0x78#8, .SEI, .implied, .none .sei⟩
  , ⟨0x58#8, .CLI, .implied, .none .cli⟩
  , ⟨0xB8#8, .CLV, .implied, .none .clv⟩
  , ⟨0xEA#8, .NOP, .implied, .none .nop⟩ ]

/-- The rows of the register transfers (rule R44). -/
def rowsTransfer : List Row :=
  [ ⟨0xAA#8, .TAX, .implied, .none .tax⟩
  , ⟨0xA8#8, .TAY, .implied, .none .tay⟩
  , ⟨0x8A#8, .TXA, .implied, .none .txa⟩
  , ⟨0x98#8, .TYA, .implied, .none .tya⟩
  , ⟨0xBA#8, .TSX, .implied, .none .tsx⟩
  , ⟨0x9A#8, .TXS, .implied, .none .txs⟩ ]

/-- The rows of the loads (rule R44). -/
def rowsLoad : List Row :=
  [ ⟨0xA9#8, .LDA, .immediate, .byte .ldaImm⟩
  , ⟨0xA5#8, .LDA, .zeroPage, .byte .ldaZp⟩
  , ⟨0xB5#8, .LDA, .zeroPageX, .byte .ldaZpX⟩
  , ⟨0xAD#8, .LDA, .absolute, .word .ldaAbs⟩
  , ⟨0xBD#8, .LDA, .absoluteX, .word .ldaAbsX⟩
  , ⟨0xB9#8, .LDA, .absoluteY, .word .ldaAbsY⟩
  , ⟨0xA1#8, .LDA, .indexedIndirect, .byte .ldaIndX⟩
  , ⟨0xB1#8, .LDA, .indirectIndexed, .byte .ldaIndY⟩
  , ⟨0xA2#8, .LDX, .immediate, .byte .ldxImm⟩
  , ⟨0xA6#8, .LDX, .zeroPage, .byte .ldxZp⟩
  , ⟨0xB6#8, .LDX, .zeroPageY, .byte .ldxZpY⟩
  , ⟨0xAE#8, .LDX, .absolute, .word .ldxAbs⟩
  , ⟨0xBE#8, .LDX, .absoluteY, .word .ldxAbsY⟩
  , ⟨0xA0#8, .LDY, .immediate, .byte .ldyImm⟩
  , ⟨0xA4#8, .LDY, .zeroPage, .byte .ldyZp⟩
  , ⟨0xB4#8, .LDY, .zeroPageX, .byte .ldyZpX⟩
  , ⟨0xAC#8, .LDY, .absolute, .word .ldyAbs⟩
  , ⟨0xBC#8, .LDY, .absoluteX, .word .ldyAbsX⟩ ]

/-- The rows of the stores (rule R44). -/
def rowsStore : List Row :=
  [ ⟨0x85#8, .STA, .zeroPage, .byte .staZp⟩
  , ⟨0x95#8, .STA, .zeroPageX, .byte .staZpX⟩
  , ⟨0x8D#8, .STA, .absolute, .word .staAbs⟩
  , ⟨0x9D#8, .STA, .absoluteX, .word .staAbsX⟩
  , ⟨0x99#8, .STA, .absoluteY, .word .staAbsY⟩
  , ⟨0x81#8, .STA, .indexedIndirect, .byte .staIndX⟩
  , ⟨0x91#8, .STA, .indirectIndexed, .byte .staIndY⟩
  , ⟨0x86#8, .STX, .zeroPage, .byte .stxZp⟩
  , ⟨0x96#8, .STX, .zeroPageY, .byte .stxZpY⟩
  , ⟨0x8E#8, .STX, .absolute, .word .stxAbs⟩
  , ⟨0x84#8, .STY, .zeroPage, .byte .styZp⟩
  , ⟨0x94#8, .STY, .zeroPageX, .byte .styZpX⟩
  , ⟨0x8C#8, .STY, .absolute, .word .styAbs⟩ ]

/-- The instruction table of rule R44, all 151 rows; read by opcode byte it is the dispatch table (rule R43). -/
def opcodeTable : List Row :=
  rowsArithmetic ++ rowsShift ++ rowsLogic ++ rowsIncDec ++ rowsBranch ++ rowsJump ++
    rowsStack ++ rowsFlag ++ rowsTransfer ++ rowsLoad ++ rowsStore

/-! ## The decoder -/

/-- The dispatch-table slot of an opcode byte: its row, or none where the slot is marked illegal (rules R43, R46). -/
def dispatchEntry (op : Byte) : Option Row := opcodeTable.find? (fun r => r.opcode == op)

/-- The number of operand bytes a form takes (rule R40). -/
def Form.len (f : Form) : Nat :=
  match f with
  | .none _ => 0
  | .byte _ | .offset _ => 1
  | .word _ => 2

/-- The instruction a form makes of the two bytes after the opcode; it looks only at as many as it takes (rule R42). -/
def Form.build (f : Form) (b1 b2 : Byte) : Instr :=
  match f with
  | .none i => i
  | .byte g => g b1
  | .offset g => g (offsetOf b1)
  | .word g => g (wordOf b1 b2)

/-- Why a list of bytes is no instruction. -/
inductive DecodeError where
  /-- There is no opcode byte. -/
  | empty
  /-- The opcode byte is one of the 105 illegal ones (rule R46). -/
  | illegalOpcode (op : Byte)
  /-- The opcode is legal and the list ends before its operand does. -/
  | missingOperand (op : Byte)
deriving DecidableEq, Repr

/-- Decoding, total on any bytes: the first instruction of the list and the bytes after it, or the reason there is
none. The length is read from the opcode byte alone (rule R41). -/
def decode (bytes : List Byte) : Except DecodeError (Instr × List Byte) :=
  match bytes with
  | [] => .error .empty
  | op :: rest =>
    match dispatchEntry op with
    | none => .error (.illegalOpcode op)
    | some row =>
      match row.form with
      | .none i => .ok (i, rest)
      | .byte f =>
        match rest with
        | b :: rest' => .ok (f b, rest')
        | [] => .error (.missingOperand op)
      | .offset f =>
        match rest with
        | b :: rest' => .ok (f (offsetOf b), rest')
        | [] => .error (.missingOperand op)
      | .word f =>
        match rest with
        | lo :: hi :: rest' => .ok (f (wordOf lo hi), rest')
        | _ => .error (.missingOperand op)

/-- The first three bytes of an instruction word that spec/opcode_table.json numbers with bit 0 in the first byte: byte
`k` is bits `8k+7 .. 8k`, and every bit at or above `nbits` is 0. -/
def tableBytes (nbits w : Nat) : List Byte :=
  let v := w % 2 ^ nbits
  [BitVec.ofNat 8 v, BitVec.ofNat 8 (v / 256), BitVec.ofNat 8 (v / 65536)]

/-- The instruction the decoder reads from a word numbered as spec/opcode_table.json numbers it. -/
def decodeTableWord (nbits w : Nat) : Option Instr :=
  match decode (tableBytes nbits w) with
  | .ok (i, _) => some i
  | .error _ => none

/-! ## The encoder, and what an instruction is a form of -/

/-- The words of an instruction, written from the table of spec 30_encoding.md rule R44 and the formats of rule R40:
the opcode byte, then the operand bytes, the low byte of a 16-bit operand first. -/
def encode (i : Instr) : List Byte :=
  match i with
  | .adcImm v => [0x69#8, v]
  | .adcZp z => [0x65#8, z]
  | .adcZpX z => [0x75#8, z]
  | .adcAbs w => [0x6D#8, loByte w, hiByte w]
  | .adcAbsX w => [0x7D#8, loByte w, hiByte w]
  | .adcAbsY w => [0x79#8, loByte w, hiByte w]
  | .adcIndX z => [0x61#8, z]
  | .adcIndY z => [0x71#8, z]
  | .sbcImm v => [0xE9#8, v]
  | .sbcZp z => [0xE5#8, z]
  | .sbcZpX z => [0xF5#8, z]
  | .sbcAbs w => [0xED#8, loByte w, hiByte w]
  | .sbcAbsX w => [0xFD#8, loByte w, hiByte w]
  | .sbcAbsY w => [0xF9#8, loByte w, hiByte w]
  | .sbcIndX z => [0xE1#8, z]
  | .sbcIndY z => [0xF1#8, z]
  | .cmpImm v => [0xC9#8, v]
  | .cmpZp z => [0xC5#8, z]
  | .cmpZpX z => [0xD5#8, z]
  | .cmpAbs w => [0xCD#8, loByte w, hiByte w]
  | .cmpAbsX w => [0xDD#8, loByte w, hiByte w]
  | .cmpAbsY w => [0xD9#8, loByte w, hiByte w]
  | .cmpIndX z => [0xC1#8, z]
  | .cmpIndY z => [0xD1#8, z]
  | .cpxImm v => [0xE0#8, v]
  | .cpxZp z => [0xE4#8, z]
  | .cpxAbs w => [0xEC#8, loByte w, hiByte w]
  | .cpyImm v => [0xC0#8, v]
  | .cpyZp z => [0xC4#8, z]
  | .cpyAbs w => [0xCC#8, loByte w, hiByte w]
  | .aslAcc => [0x0A#8]
  | .aslZp z => [0x06#8, z]
  | .aslZpX z => [0x16#8, z]
  | .aslAbs w => [0x0E#8, loByte w, hiByte w]
  | .aslAbsX w => [0x1E#8, loByte w, hiByte w]
  | .lsrAcc => [0x4A#8]
  | .lsrZp z => [0x46#8, z]
  | .lsrZpX z => [0x56#8, z]
  | .lsrAbs w => [0x4E#8, loByte w, hiByte w]
  | .lsrAbsX w => [0x5E#8, loByte w, hiByte w]
  | .rolAcc => [0x2A#8]
  | .rolZp z => [0x26#8, z]
  | .rolZpX z => [0x36#8, z]
  | .rolAbs w => [0x2E#8, loByte w, hiByte w]
  | .rolAbsX w => [0x3E#8, loByte w, hiByte w]
  | .rorAcc => [0x6A#8]
  | .rorZp z => [0x66#8, z]
  | .rorZpX z => [0x76#8, z]
  | .rorAbs w => [0x6E#8, loByte w, hiByte w]
  | .rorAbsX w => [0x7E#8, loByte w, hiByte w]
  | .bitZp z => [0x24#8, z]
  | .bitAbs w => [0x2C#8, loByte w, hiByte w]
  | .andImm v => [0x29#8, v]
  | .andZp z => [0x25#8, z]
  | .andZpX z => [0x35#8, z]
  | .andAbs w => [0x2D#8, loByte w, hiByte w]
  | .andAbsX w => [0x3D#8, loByte w, hiByte w]
  | .andAbsY w => [0x39#8, loByte w, hiByte w]
  | .andIndX z => [0x21#8, z]
  | .andIndY z => [0x31#8, z]
  | .oraImm v => [0x09#8, v]
  | .oraZp z => [0x05#8, z]
  | .oraZpX z => [0x15#8, z]
  | .oraAbs w => [0x0D#8, loByte w, hiByte w]
  | .oraAbsX w => [0x1D#8, loByte w, hiByte w]
  | .oraAbsY w => [0x19#8, loByte w, hiByte w]
  | .oraIndX z => [0x01#8, z]
  | .oraIndY z => [0x11#8, z]
  | .eorImm v => [0x49#8, v]
  | .eorZp z => [0x45#8, z]
  | .eorZpX z => [0x55#8, z]
  | .eorAbs w => [0x4D#8, loByte w, hiByte w]
  | .eorAbsX w => [0x5D#8, loByte w, hiByte w]
  | .eorAbsY w => [0x59#8, loByte w, hiByte w]
  | .eorIndX z => [0x41#8, z]
  | .eorIndY z => [0x51#8, z]
  | .incZp z => [0xE6#8, z]
  | .incZpX z => [0xF6#8, z]
  | .incAbs w => [0xEE#8, loByte w, hiByte w]
  | .incAbsX w => [0xFE#8, loByte w, hiByte w]
  | .decZp z => [0xC6#8, z]
  | .decZpX z => [0xD6#8, z]
  | .decAbs w => [0xCE#8, loByte w, hiByte w]
  | .decAbsX w => [0xDE#8, loByte w, hiByte w]
  | .inx => [0xE8#8]
  | .iny => [0xC8#8]
  | .dex => [0xCA#8]
  | .dey => [0x88#8]
  | .bcc d => [0x90#8, offsetByte d]
  | .bcs d => [0xB0#8, offsetByte d]
  | .beq d => [0xF0#8, offsetByte d]
  | .bne d => [0xD0#8, offsetByte d]
  | .bmi d => [0x30#8, offsetByte d]
  | .bpl d => [0x10#8, offsetByte d]
  | .bvc d => [0x50#8, offsetByte d]
  | .bvs d => [0x70#8, offsetByte d]
  | .jmpAbs w => [0x4C#8, loByte w, hiByte w]
  | .jmpInd w => [0x6C#8, loByte w, hiByte w]
  | .jsr w => [0x20#8, loByte w, hiByte w]
  | .rts => [0x60#8]
  | .pha => [0x48#8]
  | .php => [0x08#8]
  | .pla => [0x68#8]
  | .plp => [0x28#8]
  | .brk => [0x00#8]
  | .rti => [0x40#8]
  | .sec => [0x38#8]
  | .clc => [0x18#8]
  | .sed => [0xF8#8]
  | .cld => [0xD8#8]
  | .sei => [0x78#8]
  | .cli => [0x58#8]
  | .clv => [0xB8#8]
  | .nop => [0xEA#8]
  | .tax => [0xAA#8]
  | .tay => [0xA8#8]
  | .txa => [0x8A#8]
  | .tya => [0x98#8]
  | .tsx => [0xBA#8]
  | .txs => [0x9A#8]
  | .ldaImm v => [0xA9#8, v]
  | .ldaZp z => [0xA5#8, z]
  | .ldaZpX z => [0xB5#8, z]
  | .ldaAbs w => [0xAD#8, loByte w, hiByte w]
  | .ldaAbsX w => [0xBD#8, loByte w, hiByte w]
  | .ldaAbsY w => [0xB9#8, loByte w, hiByte w]
  | .ldaIndX z => [0xA1#8, z]
  | .ldaIndY z => [0xB1#8, z]
  | .ldxImm v => [0xA2#8, v]
  | .ldxZp z => [0xA6#8, z]
  | .ldxZpY z => [0xB6#8, z]
  | .ldxAbs w => [0xAE#8, loByte w, hiByte w]
  | .ldxAbsY w => [0xBE#8, loByte w, hiByte w]
  | .ldyImm v => [0xA0#8, v]
  | .ldyZp z => [0xA4#8, z]
  | .ldyZpX z => [0xB4#8, z]
  | .ldyAbs w => [0xAC#8, loByte w, hiByte w]
  | .ldyAbsX w => [0xBC#8, loByte w, hiByte w]
  | .staZp z => [0x85#8, z]
  | .staZpX z => [0x95#8, z]
  | .staAbs w => [0x8D#8, loByte w, hiByte w]
  | .staAbsX w => [0x9D#8, loByte w, hiByte w]
  | .staAbsY w => [0x99#8, loByte w, hiByte w]
  | .staIndX z => [0x81#8, z]
  | .staIndY z => [0x91#8, z]
  | .stxZp z => [0x86#8, z]
  | .stxZpY z => [0x96#8, z]
  | .stxAbs w => [0x8E#8, loByte w, hiByte w]
  | .styZp z => [0x84#8, z]
  | .styZpX z => [0x94#8, z]
  | .styAbs w => [0x8C#8, loByte w, hiByte w]

/-- The mnemonic an instruction is a form of (rule R44). -/
def Instr.mnemonic (i : Instr) : Mnemonic :=
  match i with
  | .adcImm _ | .adcZp _ | .adcZpX _ | .adcAbs _ | .adcAbsX _ | .adcAbsY _ | .adcIndX _ | .adcIndY _ => .ADC
  | .sbcImm _ | .sbcZp _ | .sbcZpX _ | .sbcAbs _ | .sbcAbsX _ | .sbcAbsY _ | .sbcIndX _ | .sbcIndY _ => .SBC
  | .cmpImm _ | .cmpZp _ | .cmpZpX _ | .cmpAbs _ | .cmpAbsX _ | .cmpAbsY _ | .cmpIndX _ | .cmpIndY _ => .CMP
  | .cpxImm _ | .cpxZp _ | .cpxAbs _ => .CPX
  | .cpyImm _ | .cpyZp _ | .cpyAbs _ => .CPY
  | .aslAcc | .aslZp _ | .aslZpX _ | .aslAbs _ | .aslAbsX _ => .ASL
  | .lsrAcc | .lsrZp _ | .lsrZpX _ | .lsrAbs _ | .lsrAbsX _ => .LSR
  | .rolAcc | .rolZp _ | .rolZpX _ | .rolAbs _ | .rolAbsX _ => .ROL
  | .rorAcc | .rorZp _ | .rorZpX _ | .rorAbs _ | .rorAbsX _ => .ROR
  | .bitZp _ | .bitAbs _ => .BIT
  | .andImm _ | .andZp _ | .andZpX _ | .andAbs _ | .andAbsX _ | .andAbsY _ | .andIndX _ | .andIndY _ => .AND
  | .oraImm _ | .oraZp _ | .oraZpX _ | .oraAbs _ | .oraAbsX _ | .oraAbsY _ | .oraIndX _ | .oraIndY _ => .ORA
  | .eorImm _ | .eorZp _ | .eorZpX _ | .eorAbs _ | .eorAbsX _ | .eorAbsY _ | .eorIndX _ | .eorIndY _ => .EOR
  | .incZp _ | .incZpX _ | .incAbs _ | .incAbsX _ => .INC
  | .decZp _ | .decZpX _ | .decAbs _ | .decAbsX _ => .DEC
  | .inx => .INX
  | .iny => .INY
  | .dex => .DEX
  | .dey => .DEY
  | .bcc _ => .BCC
  | .bcs _ => .BCS
  | .beq _ => .BEQ
  | .bne _ => .BNE
  | .bmi _ => .BMI
  | .bpl _ => .BPL
  | .bvc _ => .BVC
  | .bvs _ => .BVS
  | .jmpAbs _ | .jmpInd _ => .JMP
  | .jsr _ => .JSR
  | .rts => .RTS
  | .pha => .PHA
  | .php => .PHP
  | .pla => .PLA
  | .plp => .PLP
  | .brk => .BRK
  | .rti => .RTI
  | .sec => .SEC
  | .clc => .CLC
  | .sed => .SED
  | .cld => .CLD
  | .sei => .SEI
  | .cli => .CLI
  | .clv => .CLV
  | .nop => .NOP
  | .tax => .TAX
  | .tay => .TAY
  | .txa => .TXA
  | .tya => .TYA
  | .tsx => .TSX
  | .txs => .TXS
  | .ldaImm _ | .ldaZp _ | .ldaZpX _ | .ldaAbs _ | .ldaAbsX _ | .ldaAbsY _ | .ldaIndX _ | .ldaIndY _ => .LDA
  | .ldxImm _ | .ldxZp _ | .ldxZpY _ | .ldxAbs _ | .ldxAbsY _ => .LDX
  | .ldyImm _ | .ldyZp _ | .ldyZpX _ | .ldyAbs _ | .ldyAbsX _ => .LDY
  | .staZp _ | .staZpX _ | .staAbs _ | .staAbsX _ | .staAbsY _ | .staIndX _ | .staIndY _ => .STA
  | .stxZp _ | .stxZpY _ | .stxAbs _ => .STX
  | .styZp _ | .styZpX _ | .styAbs _ => .STY

/-- The operand of an instruction, in its addressing mode (rules R42 and R44). -/
def Instr.operand (i : Instr) : Operand :=
  match i with
  | .inx | .iny | .dex | .dey | .rts | .pha | .php | .pla | .plp | .brk | .rti | .sec | .clc | .sed | .cld
  | .sei | .cli | .clv | .nop | .tax | .tay | .txa | .tya | .tsx | .txs => .implied
  | .aslAcc | .lsrAcc | .rolAcc | .rorAcc => .accumulator
  | .adcImm v | .sbcImm v | .cmpImm v | .cpxImm v | .cpyImm v | .andImm v | .oraImm v | .eorImm v | .ldaImm v
  | .ldxImm v | .ldyImm v => .immediate v
  | .adcZp z | .sbcZp z | .cmpZp z | .cpxZp z | .cpyZp z | .aslZp z | .lsrZp z | .rolZp z | .rorZp z
  | .bitZp z | .andZp z | .oraZp z | .eorZp z | .incZp z | .decZp z | .ldaZp z | .ldxZp z | .ldyZp z
  | .staZp z | .stxZp z | .styZp z => .zeroPage z
  | .adcZpX z | .sbcZpX z | .cmpZpX z | .aslZpX z | .lsrZpX z | .rolZpX z | .rorZpX z | .andZpX z | .oraZpX z
  | .eorZpX z | .incZpX z | .decZpX z | .ldaZpX z | .ldyZpX z | .staZpX z | .styZpX z => .zeroPageX z
  | .ldxZpY z | .stxZpY z => .zeroPageY z
  | .adcAbs w | .sbcAbs w | .cmpAbs w | .cpxAbs w | .cpyAbs w | .aslAbs w | .lsrAbs w | .rolAbs w | .rorAbs w
  | .bitAbs w | .andAbs w | .oraAbs w | .eorAbs w | .incAbs w | .decAbs w | .jmpAbs w | .jsr w | .ldaAbs w
  | .ldxAbs w | .ldyAbs w | .staAbs w | .stxAbs w | .styAbs w => .absolute w
  | .adcAbsX w | .sbcAbsX w | .cmpAbsX w | .aslAbsX w | .lsrAbsX w | .rolAbsX w | .rorAbsX w | .andAbsX w
  | .oraAbsX w | .eorAbsX w | .incAbsX w | .decAbsX w | .ldaAbsX w | .ldyAbsX w | .staAbsX w => .absoluteX w
  | .adcAbsY w | .sbcAbsY w | .cmpAbsY w | .andAbsY w | .oraAbsY w | .eorAbsY w | .ldaAbsY w | .ldxAbsY w
  | .staAbsY w => .absoluteY w
  | .jmpInd w => .indirect w
  | .adcIndX z | .sbcIndX z | .cmpIndX z | .andIndX z | .oraIndX z | .eorIndX z | .ldaIndX z | .staIndX z => .indexedIndirect z
  | .adcIndY z | .sbcIndY z | .cmpIndY z | .andIndY z | .oraIndY z | .eorIndY z | .ldaIndY z | .staIndY z => .indirectIndexed z
  | .bcc d | .bcs d | .beq d | .bne d | .bmi d | .bpl d | .bvc d | .bvs d => .relative d

/-- The addressing mode of an operand. -/
def Operand.mode (o : Operand) : Mode :=
  match o with
  | .implied => .implied
  | .accumulator => .accumulator
  | .immediate _ => .immediate
  | .zeroPage _ => .zeroPage
  | .zeroPageX _ => .zeroPageX
  | .zeroPageY _ => .zeroPageY
  | .absolute _ => .absolute
  | .absoluteX _ => .absoluteX
  | .absoluteY _ => .absoluteY
  | .indirect _ => .indirect
  | .indexedIndirect _ => .indexedIndirect
  | .indirectIndexed _ => .indirectIndexed
  | .relative _ => .relative

/-- The length of an instruction in bytes, `1 + len(mode)` (rule R41). -/
def Instr.length (i : Instr) : Nat := 1 + i.operand.mode.len

end Sys2Proof
end

