-- ==== Sys2Proof/Config.lean ====
section
/-! DEFINITION. What the embedding fixes (the open parameters of spec 92_eei_decisions.md, at their defaults) and the
fixed addresses of the architecture. The spec leaves no value open during execution, so there is no free value. -/

namespace Sys2Proof.Config

/-- `LOAD_ADDRESS`, the address of the first opcode after reset (rule R176; default of decision D10; log entry 1).
DESIGN CHOICE: the parameter is fixed at the spec's default here; `Machine.construct` takes any other. -/
def loadAddress : Addr := 0x0600#16

/-- `SP_RESET` (rule R15; default of decision D9; log entry 2). DESIGN CHOICE, as for `loadAddress`. -/
def spReset : Byte := 0xFF#8

/-- `MEM_INIT`: what a memory byte holds before anything wrote it, all 0x00 (rule R15; default of decision D9; log
entry 3). This is also what an address that the memory list does not hold reads as. -/
def memInit (_address : Nat) : Byte := 0x00#8

/-- `STOP_OPCODE`, the sentinel of `run` (rule R179; default of decision D12; log entry 20). -/
def stopOpcode : Byte := 0x00#8

/-- Address 0x0100, the lowest byte of the stack page (rules R7 and R28). -/
def stackPage : Addr := 0x0100#16

/-- Address 0xFFFE, the low byte of the one interrupt vector (rules R28 and R129). -/
def breakVector : Addr := 0xFFFE#16

/-- The number of memory cells (rules R12 and R20). -/
def memSize : Nat := 65536

end Sys2Proof.Config
end

