-- ==== Sys2Proof/Machine/State.lean ====
section
/-! DEFINITION. The state of the core (spec 10_state.md), as plain data, and its value after reset. -/

namespace Sys2Proof.Machine

/-- The six status flags (rule R8). There is no stored break flag and no stored bit 5: they exist only in the packed
form (rule R9). -/
structure Flags where
  n : Bool
  v : Bool
  d : Bool
  i : Bool
  z : Bool
  c : Bool
deriving DecidableEq, Repr

/-- The fault status (rule R14): running, or stopped for good by the illegal opcode byte `op` fetched from `at`. -/
inductive Status where
  | running
  | faulted (op : Byte) (at_ : Addr)
deriving DecidableEq, Repr

/-- The 65536 bytes of memory (rule R12), as the list of those cells that differ from `Config.memInit`, by rising
address; `Memory.wf` in Ops.lean is this canonical form (log entry 21). -/
abbrev Memory := List Host.Cell

/-- Everything the spec gives the machine (rule R13: the registers and flags of rules R3 to R8, the memory of rule R12
and the fault status of rule R14 are "all the state there is"). -/
structure State where
  /-- A, the accumulator (rule R3). -/
  a : Byte
  /-- X, an index register (rule R4). -/
  x : Byte
  /-- Y, an index register (rule R5). -/
  y : Byte
  /-- SP, an offset into the stack page; it designates the next free byte (rule R7). -/
  sp : Byte
  /-- PC, the address of the next opcode (rule R6). -/
  pc : Addr
  /-- N, V, D, I, Z, C (rule R8). -/
  flags : Flags
  /-- M (rule R12). -/
  mem : Memory
  /-- Running or Faulted (rule R14). -/
  status : Status
deriving DecidableEq, Repr

/-- Reasons to stop with a fault: none. Nobody raises one, and that is safe: "No executing instruction can fault"
(spec 60_exceptions.md rule R163), and the one fault of the machine, the illegal opcode, is a state the machine goes to
and stays in (rules R161 and R162), so a step answers a next state for it too (log entry 5). -/
inductive Fault : Type
deriving DecidableEq, Repr

/-- Reasons to refuse an instruction. -/
inductive Refusal where
  /-- Raised by an arm of `exec` that has no meaning yet, with the instruction's mnemonic; safe, since no run goes on
  from it. No arm raises it: all 151 instructions have their meaning. -/
  | notModelled (mnemonic : String)
deriving DecidableEq, Repr

/-- What a step or a meaning answers. -/
abbrev Outcome := Host.Outcome State Fault Refusal

/-- All six flags clear. -/
def Flags.clear : Flags := { n := false, v := false, d := false, i := false, z := false, c := false }

/-- The machine right after reset, which is the construction of an instance (rules R15 and R175), before any program is
loaded (log entry 1). The values of Y, SP, the flags, the memory and the status are decisions of the spec (D9 and D11;
log entries 2 to 5). -/
def State.reset : State where
  a := 0x00#8
  x := 0x00#8
  y := 0x00#8
  sp := Config.spReset
  pc := Config.loadAddress
  flags := Flags.clear
  mem := []
  status := .running

end Sys2Proof.Machine
end

