-- ==== Sys2Proof/Machine/Flags.lean ====
section
/-! DEFINITION. Every flag computation: the NZ update and the packed status byte (spec 10_state.md rules R9 to R11 and
R16), the sum, the difference and the comparison (41_arithmetic_compare.md), the shifts, BIT (42_shift_logic_incdec.md).
Each is a function of bytes and flags alone. -/

namespace Sys2Proof.Machine

/-! ## The NZ update and the packed form -/

/-- `SetNZ(v)` (rule R16). -/
def Flags.setNZ (f : Flags) (v : Byte) : Flags := { f with n := v.msb, z := v == 0#8 }

/-- `Pack(b)`: the packed status byte, high to low N V 1 b D I Z C (rule R10). -/
def Flags.pack (f : Flags) (b : Bool) : Byte :=
  ((BitVec.ofBool f.n).setWidth 8 <<< 7) ||| ((BitVec.ofBool f.v).setWidth 8 <<< 6) ||| (1#8 <<< 5) |||
    ((BitVec.ofBool b).setWidth 8 <<< 4) ||| ((BitVec.ofBool f.d).setWidth 8 <<< 3) |||
    ((BitVec.ofBool f.i).setWidth 8 <<< 2) ||| ((BitVec.ofBool f.z).setWidth 8 <<< 1) |||
    (BitVec.ofBool f.c).setWidth 8

/-- `Unpack(p)`: all six flags from a packed byte; bits 5 and 4 are discarded (rule R11). -/
def Flags.unpack (p : Byte) : Flags where
  n := p.getLsbD 7
  v := p.getLsbD 6
  d := p.getLsbD 3
  i := p.getLsbD 2
  z := p.getLsbD 1
  c := p.getLsbD 0

/-! ## Sum, difference, comparison -/

/-- A byte result with the carry and overflow that go with it. -/
structure ArithResult where
  value : Byte
  carry : Bool
  overflow : Bool
deriving DecidableEq, Repr

/-- ADC's sum (rule R80): exact, then narrowed; binary whatever the decimal flag says (rule R85). -/
def addWithCarry (a m : Byte) (c : Bool) : ArithResult :=
  let sum : Nat := a.toNat + m.toNat + c.toNat
  let r : Byte := BitVec.ofNat 8 sum
  { value := r, carry := decide (255 < sum), overflow := ((a ^^^ r) &&& (m ^^^ r) &&& 0x80#8) != 0#8 }

/-- SBC's difference (rule R81); the carry means "no borrow" going in and coming out. The overflow is decision D7's
(log entry 13). -/
def subWithBorrow (a m : Byte) (c : Bool) : ArithResult :=
  let diff : Int := (a.toNat : Int) - m.toNat - (1 - c.toNat)
  let r : Byte := BitVec.ofInt 8 diff
  { value := r, carry := decide (0 ≤ diff), overflow := ((a ^^^ m) &&& (a ^^^ r) &&& 0x80#8) != 0#8 }

/-- The flags after ADC or SBC: V, C, and the NZ update on the result (rules R80 and R81). -/
def Flags.afterArith (f : Flags) (r : ArithResult) : Flags :=
  { f.setNZ r.value with v := r.overflow, c := r.carry }

/-- The flags after a comparison of a register with a byte: C, and the NZ update on the 8-bit difference (rule R82). -/
def Flags.afterCompare (f : Flags) (reg m : Byte) : Flags :=
  let diff : Int := (reg.toNat : Int) - m.toNat
  { f.setNZ (BitVec.ofInt 8 diff) with c := decide (0 ≤ diff) }

/-! ## Shifts and rotates, by one place -/

/-- A shifted byte and the bit shifted out. -/
structure ShiftResult where
  value : Byte
  carry : Bool
deriving DecidableEq, Repr

/-- ASL (rules R90 and R91): bit 0 becomes 0. The old carry is no input. -/
def shiftLeft (v : Byte) (_c : Bool) : ShiftResult := { value := v <<< 1, carry := v.getLsbD 7 }

/-- LSR (rules R92 and R93): bit 7 becomes 0. The old carry is no input. -/
def shiftRight (v : Byte) (_c : Bool) : ShiftResult := { value := v >>> 1, carry := v.getLsbD 0 }

/-- ROL (rules R94 and R95): the old carry enters at bit 0. -/
def rotateLeft (v : Byte) (c : Bool) : ShiftResult :=
  { value := (v <<< 1) ||| (BitVec.ofBool c).setWidth 8, carry := v.getLsbD 7 }

/-- ROR (rules R96 and R97): the old carry enters at bit 7. -/
def rotateRight (v : Byte) (c : Bool) : ShiftResult :=
  { value := (v >>> 1) ||| ((BitVec.ofBool c).setWidth 8 <<< 7), carry := v.getLsbD 0 }

/-- The flags after a shift: C, and the NZ update on the new value (rules R90 to R97). -/
def Flags.afterShift (f : Flags) (r : ShiftResult) : Flags := { f.setNZ r.value with c := r.carry }

/-! ## BIT, and the steps by one -/

/-- The flags after BIT (rule R98): N and V are bits 7 and 6 of the memory operand, Z tests `A AND memory`. -/
def Flags.afterBit (f : Flags) (a m : Byte) : Flags :=
  { f with n := m.getLsbD 7, v := m.getLsbD 6, z := (a &&& m) == 0#8 }

/-- Add 1 with 8-bit wrap (rules R102, R104, R105). -/
def increment (v : Byte) : Byte := v + 1#8

/-- Subtract 1 with 8-bit wrap (rules R103, R106, R107). -/
def decrement (v : Byte) : Byte := v - 1#8

end Sys2Proof.Machine
end

