-- ==== Sys2Proof/Machine/Ops.lean ====
section
/-! DEFINITION. The named operations over memory, registers and the program counter (spec 20_memory.md), entering the
trap and returning from it, and the illegal-opcode fault (60_exceptions.md). -/

namespace Sys2Proof.Machine

/-! ## Memory as a list of cells -/

/-- The byte at address `k` (rule R21): the listed one, or what the cell held at first. -/
def Memory.read (m : Memory) (k : Nat) : Byte :=
  match m with
  | [] => Config.memInit k
  | (k', b) :: rest => if k' = k then b else Memory.read rest k

/-- A memory list with a cell put in before the first one of a higher address. -/
def Memory.insert (m : Memory) (k : Nat) (b : Byte) : Memory :=
  match m with
  | [] => [(k, b)]
  | (k', b') :: rest => if k < k' then (k, b) :: (k', b') :: rest else (k', b') :: Memory.insert rest k b

/-- A memory list without any cell for `k`. -/
def Memory.erase (m : Memory) (k : Nat) : Memory := m.filter (fun cell => cell.1 != k)

/-- Store a byte (rule R22), keeping the canonical form: a byte equal to what the cell held at first is not listed. -/
def Memory.write (m : Memory) (k : Nat) (b : Byte) : Memory :=
  if b = Config.memInit k then m.erase k else (m.erase k).insert k b

/-- The cells from address `lo` on are in canonical form: rising addresses inside memory, no cell at its first value. -/
def Memory.wfFrom (lo : Nat) (m : Memory) : Bool :=
  match m with
  | [] => true
  | (k, b) :: rest =>
    decide (lo ≤ k) && decide (k < Config.memSize) && (b != Config.memInit k) && Memory.wfFrom (k + 1) rest

/-- The canonical form of memory. -/
def Memory.wf (m : Memory) : Bool := Memory.wfFrom 0 m

/-! ## Setting one part of the state -/

/-- `A <- v`. -/
def State.setA (s : State) (v : Byte) : State := { s with a := v }
/-- `X <- v`. -/
def State.setX (s : State) (v : Byte) : State := { s with x := v }
/-- `Y <- v`. -/
def State.setY (s : State) (v : Byte) : State := { s with y := v }
/-- `SP <- v`. -/
def State.setSP (s : State) (v : Byte) : State := { s with sp := v }
/-- `PC <- t`. -/
def State.setPc (s : State) (t : Addr) : State := { s with pc := t }
/-- All six flags at once. -/
def State.setFlags (s : State) (f : Flags) : State := { s with flags := f }
/-- All of memory at once. -/
def State.setMem (s : State) (m : Memory) : State := { s with mem := m }
/-- The fault status. -/
def State.setStatus (s : State) (st : Status) : State := { s with status := st }

/-! ## Reading and writing memory -/

/-- `MemRead(a, 1)` (rule R21). -/
def State.read (s : State) (a : Addr) : Byte := s.mem.read a.toNat

/-- `MemWrite(a, 1, v)` (rule R22). -/
def State.write (s : State) (a : Addr) (v : Byte) : State := s.setMem (s.mem.write a.toNat v)

/-- `Read16(a)`: low byte at `a`, high byte at `a + 1`, with 16-bit wrap (rules R23 and R24). -/
def State.read16 (s : State) (a : Addr) : Addr := wordOf (s.read a) (s.read (a + 1#16))

/-- The address of a zero-page byte: high byte 0x00 (rule R42). -/
def zeroPageAddr (z : Byte) : Addr := z.setWidth 16

/-- `ReadZP16(z)`: both bytes from the zero page, the successor of 0xFF being 0x00 (rule R25; decision D8, log
entry 14). -/
def State.readZP16 (s : State) (z : Byte) : Addr :=
  wordOf (s.read (zeroPageAddr z)) (s.read (zeroPageAddr (z + 1#8)))

/-! ## The stack -/

/-- The address SP designates, `0x0100 + SP` (rule R7). -/
def stackAddr (sp : Byte) : Addr := Config.stackPage + sp.setWidth 16

/-- `Push(v)`: write at the old SP, then decrement it with 8-bit wrap (rule R29). -/
def State.push (s : State) (v : Byte) : State := (s.write (stackAddr s.sp) v).setSP (s.sp - 1#8)

/-- `Pop()`: increment SP with 8-bit wrap, then read there (rule R30). -/
def State.pop (s : State) : Byte × State := (s.read (stackAddr (s.sp + 1#8)), s.setSP (s.sp + 1#8))

/-- `Push16(w)`: high byte, then low byte (rule R31). -/
def State.push16 (s : State) (w : Addr) : State := (s.push (hiByte w)).push (loByte w)

/-- `Pop16()`: low byte, then high byte (rule R31). -/
def State.pop16 (s : State) : Addr × State := (wordOf s.pop.1 s.pop.2.pop.1, s.pop.2.pop.2)

/-! ## Where the program counter goes -/

/-- `next`, the address of the instruction after one of `len` operand bytes: `pc0 + 1 + len` (rule R60). -/
def State.nextPc (s : State) (len : Nat) : Addr := s.pc + BitVec.ofNat 16 (1 + len)

/-- An instruction of `len` operand bytes ends without writing PC (rule R61). -/
def retire (len : Nat) (s : State) : Outcome := .next (s.setPc (s.nextPc len))

/-- An instruction ends by writing PC, and nothing is added to what it wrote (rule R61). -/
def jumpTo (target : Addr) (s : State) : Outcome := .next (s.setPc target)

/-! ## Executors that several instructions share -/

/-- Load A with the NZ update (rules R127, R147, R148, R151). -/
def loadA (v : Byte) (s : State) : State := (s.setA v).setFlags (s.flags.setNZ v)
/-- Load X with the NZ update (rules R104, R106, R145, R149, R152). -/
def loadX (v : Byte) (s : State) : State := (s.setX v).setFlags (s.flags.setNZ v)
/-- Load Y with the NZ update (rules R105, R107, R146, R153). -/
def loadY (v : Byte) (s : State) : State := (s.setY v).setFlags (s.flags.setNZ v)

/-! ## The trap, its return, and the fault -/

/-- Taking the one trap of the machine (rules R129 and R167): push the return address, high byte first, and the packed
status with B and bit 5 set; then PC is the word that the vector holds after the pushes. No flag changes (decision D5;
log entry 11). -/
def trapEntry (ra : Addr) (s : State) : State :=
  let pushed := (s.push16 ra).push (s.flags.pack true)
  pushed.setPc (pushed.read16 Config.breakVector)

/-- Returning from the trap (rules R130 and R168): the flags first, then PC. -/
def trapReturn (s : State) : State :=
  let unpacked := s.pop.2.setFlags (Flags.unpack s.pop.1)
  unpacked.pop16.2.setPc unpacked.pop16.1

/-- `raise IllegalOpcode(op, at)` (rule R161): the status records the byte and its address, and nothing else changes
(decision D11; log entry 5). -/
def raiseIllegalOpcode (op : Byte) (at_ : Addr) (s : State) : State := s.setStatus (.faulted op at_)

end Sys2Proof.Machine
end

