-- ==== Sys2Proof/Machine/Operands.lean ====
section
/-! DEFINITION. The 13 addressing-mode resolvers (spec 40_cycle_and_addressing.md rules R62 to R74). In each, the state
is the one the tick began with, so `s.pc` is `pc0`, the address of the opcode byte. -/

namespace Sys2Proof.Machine

/-- immediate (rule R64): the address of the operand byte itself. The decoded instruction carries that byte, so no
meaning reads it again (log entry 6). -/
def eaImmediate (s : State) : Addr := s.pc + 1#16

/-- zeroPage (rule R65). -/
def eaZeroPage (z : Byte) : Addr := zeroPageAddr z

/-- zeroPageX (rule R66): the sum wraps inside the zero page. -/
def eaZeroPageX (z : Byte) (s : State) : Addr := zeroPageAddr (z + s.x)

/-- zeroPageY (rule R67): the sum wraps inside the zero page. -/
def eaZeroPageY (z : Byte) (s : State) : Addr := zeroPageAddr (z + s.y)

/-- absolute (rule R68). -/
def eaAbsolute (w : Addr) : Addr := w

/-- absoluteX (rule R69): the sum wraps at 16 bits. -/
def eaAbsoluteX (w : Addr) (s : State) : Addr := w + s.x.setWidth 16

/-- absoluteY (rule R70): the sum wraps at 16 bits. -/
def eaAbsoluteY (w : Addr) (s : State) : Addr := w + s.y.setWidth 16

/-- relative (rule R71): the offset counts from the instruction after the branch (decision D3; log entry 9). -/
def eaRelative (d : Int) (s : State) : Addr := s.nextPc 1 + BitVec.ofInt 16 d

/-- indirect (rule R72): the word stored at the operand address, with full carry into the address of its high byte. -/
def eaIndirect (w : Addr) (s : State) : Addr := s.read16 w

/-- indexedIndirect (rule R73): the zero-page pointer at operand plus X. -/
def eaIndexedIndirect (z : Byte) (s : State) : Addr := s.readZP16 (z + s.x)

/-- indirectIndexed (rule R74): the zero-page pointer at the operand, plus Y with 16-bit wrap. -/
def eaIndirectIndexed (z : Byte) (s : State) : Addr := s.readZP16 z + s.y.setWidth 16

/-- `Resolve(mode)` (rule R60): the effective address of an operand, none for implied and accumulator (rules R62 and
R63). -/
def resolve (o : Operand) (s : State) : Option Addr :=
  match o with
  | .implied => none
  | .accumulator => none
  | .immediate _ => some (eaImmediate s)
  | .zeroPage z => some (eaZeroPage z)
  | .zeroPageX z => some (eaZeroPageX z s)
  | .zeroPageY z => some (eaZeroPageY z s)
  | .absolute w => some (eaAbsolute w)
  | .absoluteX w => some (eaAbsoluteX w s)
  | .absoluteY w => some (eaAbsoluteY w s)
  | .indirect w => some (eaIndirect w s)
  | .indexedIndirect z => some (eaIndexedIndirect z s)
  | .indirectIndexed z => some (eaIndirectIndexed z s)
  | .relative d => some (eaRelative d s)

/-- The byte an executor takes as its operand (rules R63 and R75): the operand byte of an immediate, A for accumulator,
the byte at the effective address for the modes that read or write memory, and none for the modes that have none or use
their effective address as a PC value. -/
def operandByte (o : Operand) (s : State) : Option Byte :=
  match o with
  | .implied => none
  | .accumulator => some s.a
  | .immediate v => some v
  | .zeroPage z => some (s.read (eaZeroPage z))
  | .zeroPageX z => some (s.read (eaZeroPageX z s))
  | .zeroPageY z => some (s.read (eaZeroPageY z s))
  | .absolute w => some (s.read (eaAbsolute w))
  | .absoluteX w => some (s.read (eaAbsoluteX w s))
  | .absoluteY w => some (s.read (eaAbsoluteY w s))
  | .indirect _ => none
  | .indexedIndirect z => some (s.read (eaIndexedIndirect z s))
  | .indirectIndexed z => some (s.read (eaIndirectIndexed z s))
  | .relative _ => none

end Sys2Proof.Machine
end

