-- ==== Sys2Proof/Machine/Arithmetic.lean ====
section
/-! DEFINITION. The meanings of ADC, SBC, CMP, CPX and CPY (spec 41_arithmetic_compare.md). The decimal flag is never
read (rule R85). -/

namespace Sys2Proof.Machine

/-- ADC of the byte `m` (rule R80). -/
def addToA (m : Byte) (s : State) : State :=
  let r := addWithCarry s.a m s.flags.c
  (s.setA r.value).setFlags (s.flags.afterArith r)

/-- SBC of the byte `m` (rule R81). -/
def subFromA (m : Byte) (s : State) : State :=
  let r := subWithBorrow s.a m s.flags.c
  (s.setA r.value).setFlags (s.flags.afterArith r)

/-- CMP with the byte `m` (rule R82). -/
def compareA (m : Byte) (s : State) : State := s.setFlags (s.flags.afterCompare s.a m)
/-- CPX with the byte `m` (rule R83). -/
def compareX (m : Byte) (s : State) : State := s.setFlags (s.flags.afterCompare s.x m)
/-- CPY with the byte `m` (rule R84). -/
def compareY (m : Byte) (s : State) : State := s.setFlags (s.flags.afterCompare s.y m)

/-- ADC #$hh (R80, R64). -/
def execAdcImm (v : Byte) (s : State) : Outcome :=
  retire 1 (addToA v s)

/-- ADC $hh (R80, R65). -/
def execAdcZp (z : Byte) (s : State) : Outcome :=
  retire 1 (addToA (s.read (eaZeroPage z)) s)

/-- ADC $hh,X (R80, R66). -/
def execAdcZpX (z : Byte) (s : State) : Outcome :=
  retire 1 (addToA (s.read (eaZeroPageX z s)) s)

/-- ADC $hhhh (R80, R68). -/
def execAdcAbs (w : Addr) (s : State) : Outcome :=
  retire 2 (addToA (s.read (eaAbsolute w)) s)

/-- ADC $hhhh,X (R80, R69). -/
def execAdcAbsX (w : Addr) (s : State) : Outcome :=
  retire 2 (addToA (s.read (eaAbsoluteX w s)) s)

/-- ADC $hhhh,Y (R80, R70). -/
def execAdcAbsY (w : Addr) (s : State) : Outcome :=
  retire 2 (addToA (s.read (eaAbsoluteY w s)) s)

/-- ADC ($hh,X) (R80, R73). -/
def execAdcIndX (z : Byte) (s : State) : Outcome :=
  retire 1 (addToA (s.read (eaIndexedIndirect z s)) s)

/-- ADC ($hh),Y (R80, R74). -/
def execAdcIndY (z : Byte) (s : State) : Outcome :=
  retire 1 (addToA (s.read (eaIndirectIndexed z s)) s)

/-- SBC #$hh (R81, R64). -/
def execSbcImm (v : Byte) (s : State) : Outcome :=
  retire 1 (subFromA v s)

/-- SBC $hh (R81, R65). -/
def execSbcZp (z : Byte) (s : State) : Outcome :=
  retire 1 (subFromA (s.read (eaZeroPage z)) s)

/-- SBC $hh,X (R81, R66). -/
def execSbcZpX (z : Byte) (s : State) : Outcome :=
  retire 1 (subFromA (s.read (eaZeroPageX z s)) s)

/-- SBC $hhhh (R81, R68). -/
def execSbcAbs (w : Addr) (s : State) : Outcome :=
  retire 2 (subFromA (s.read (eaAbsolute w)) s)

/-- SBC $hhhh,X (R81, R69). -/
def execSbcAbsX (w : Addr) (s : State) : Outcome :=
  retire 2 (subFromA (s.read (eaAbsoluteX w s)) s)

/-- SBC $hhhh,Y (R81, R70). -/
def execSbcAbsY (w : Addr) (s : State) : Outcome :=
  retire 2 (subFromA (s.read (eaAbsoluteY w s)) s)

/-- SBC ($hh,X) (R81, R73). -/
def execSbcIndX (z : Byte) (s : State) : Outcome :=
  retire 1 (subFromA (s.read (eaIndexedIndirect z s)) s)

/-- SBC ($hh),Y (R81, R74). -/
def execSbcIndY (z : Byte) (s : State) : Outcome :=
  retire 1 (subFromA (s.read (eaIndirectIndexed z s)) s)

/-- CMP #$hh (R82, R64). -/
def execCmpImm (v : Byte) (s : State) : Outcome :=
  retire 1 (compareA v s)

/-- CMP $hh (R82, R65). -/
def execCmpZp (z : Byte) (s : State) : Outcome :=
  retire 1 (compareA (s.read (eaZeroPage z)) s)

/-- CMP $hh,X (R82, R66). -/
def execCmpZpX (z : Byte) (s : State) : Outcome :=
  retire 1 (compareA (s.read (eaZeroPageX z s)) s)

/-- CMP $hhhh (R82, R68). -/
def execCmpAbs (w : Addr) (s : State) : Outcome :=
  retire 2 (compareA (s.read (eaAbsolute w)) s)

/-- CMP $hhhh,X (R82, R69). -/
def execCmpAbsX (w : Addr) (s : State) : Outcome :=
  retire 2 (compareA (s.read (eaAbsoluteX w s)) s)

/-- CMP $hhhh,Y (R82, R70). -/
def execCmpAbsY (w : Addr) (s : State) : Outcome :=
  retire 2 (compareA (s.read (eaAbsoluteY w s)) s)

/-- CMP ($hh,X) (R82, R73). -/
def execCmpIndX (z : Byte) (s : State) : Outcome :=
  retire 1 (compareA (s.read (eaIndexedIndirect z s)) s)

/-- CMP ($hh),Y (R82, R74). -/
def execCmpIndY (z : Byte) (s : State) : Outcome :=
  retire 1 (compareA (s.read (eaIndirectIndexed z s)) s)

/-- CPX #$hh (R83, R64). -/
def execCpxImm (v : Byte) (s : State) : Outcome :=
  retire 1 (compareX v s)

/-- CPX $hh (R83, R65). -/
def execCpxZp (z : Byte) (s : State) : Outcome :=
  retire 1 (compareX (s.read (eaZeroPage z)) s)

/-- CPX $hhhh (R83, R68). -/
def execCpxAbs (w : Addr) (s : State) : Outcome :=
  retire 2 (compareX (s.read (eaAbsolute w)) s)

/-- CPY #$hh (R84, R64). -/
def execCpyImm (v : Byte) (s : State) : Outcome :=
  retire 1 (compareY v s)

/-- CPY $hh (R84, R65). -/
def execCpyZp (z : Byte) (s : State) : Outcome :=
  retire 1 (compareY (s.read (eaZeroPage z)) s)

/-- CPY $hhhh (R84, R68). -/
def execCpyAbs (w : Addr) (s : State) : Outcome :=
  retire 2 (compareY (s.read (eaAbsolute w)) s)

end Sys2Proof.Machine
end

