-- ==== Sys2Proof/Machine/Control.lean ====
section
/-! DEFINITION. The meanings of the branches, JMP, JSR and RTS (spec 43_control_transfer.md). None writes a flag or any
of A, X, Y. -/

namespace Sys2Proof.Machine

/-- The common rule of the branches (rule R110): to the effective address if the condition holds, else on. -/
def branchIf (cond : Bool) (d : Int) (s : State) : Outcome :=
  if cond then jumpTo (eaRelative d s) s else retire 1 s

/-- BCC d (R111, R71). -/
def execBcc (d : Int) (s : State) : Outcome :=
  branchIf (!s.flags.c) d s

/-- BCS d (R112, R71). -/
def execBcs (d : Int) (s : State) : Outcome :=
  branchIf s.flags.c d s

/-- BEQ d (R113, R71). -/
def execBeq (d : Int) (s : State) : Outcome :=
  branchIf s.flags.z d s

/-- BNE d (R114, R71). -/
def execBne (d : Int) (s : State) : Outcome :=
  branchIf (!s.flags.z) d s

/-- BMI d (R115, R71). -/
def execBmi (d : Int) (s : State) : Outcome :=
  branchIf s.flags.n d s

/-- BPL d (R116, R71). -/
def execBpl (d : Int) (s : State) : Outcome :=
  branchIf (!s.flags.n) d s

/-- BVC d (R117, R71). -/
def execBvc (d : Int) (s : State) : Outcome :=
  branchIf (!s.flags.v) d s

/-- BVS d (R118, R71). -/
def execBvs (d : Int) (s : State) : Outcome :=
  branchIf s.flags.v d s

/-- JMP $hhhh (R119, R68). -/
def execJmpAbs (w : Addr) (s : State) : Outcome :=
  jumpTo (eaAbsolute w) s

/-- JMP ($hhhh) (R119, R72). -/
def execJmpInd (w : Addr) (s : State) : Outcome :=
  jumpTo (eaIndirect w s) s

/-- JSR $hhhh (R120, R68). -/
def execJsr (w : Addr) (s : State) : Outcome :=
  jumpTo (eaAbsolute w) (s.push16 (s.nextPc 2))

/-- RTS (R121, R62). -/
def execRts (s : State) : Outcome :=
  jumpTo s.pop16.1 s.pop16.2

end Sys2Proof.Machine
end

