-- ==== Sys2Proof/Machine/FlagNop.lean ====
section
/-! DEFINITION. The meanings of the flag instructions and NOP (spec 45_flag_nop.md): each flag instruction writes one
flag, NOP none. -/

namespace Sys2Proof.Machine

/-- SEC (R135, R62). -/
def execSec (s : State) : Outcome :=
  retire 0 (s.setFlags { s.flags with c := true })

/-- CLC (R136, R62). -/
def execClc (s : State) : Outcome :=
  retire 0 (s.setFlags { s.flags with c := false })

/-- SED (R137, R62). -/
def execSed (s : State) : Outcome :=
  retire 0 (s.setFlags { s.flags with d := true })

/-- CLD (R138, R62). -/
def execCld (s : State) : Outcome :=
  retire 0 (s.setFlags { s.flags with d := false })

/-- SEI (R139, R62). -/
def execSei (s : State) : Outcome :=
  retire 0 (s.setFlags { s.flags with i := true })

/-- CLI (R140, R62). -/
def execCli (s : State) : Outcome :=
  retire 0 (s.setFlags { s.flags with i := false })

/-- CLV (R141, R62). -/
def execClv (s : State) : Outcome :=
  retire 0 (s.setFlags { s.flags with v := false })

/-- NOP (R142, R62). -/
def execNop (s : State) : Outcome :=
  retire 0 s

end Sys2Proof.Machine
end

