-- ==== Sys2Proof/Machine/ShiftLogic.lean ====
section
/-! DEFINITION. The meanings of the shifts and rotates, BIT, the logic instructions, and the increments and decrements
(spec 42_shift_logic_incdec.md). -/

namespace Sys2Proof.Machine

/-- A shift or rotate of the byte at `ea`: one read, then one write (rules R27, R90, R92, R94, R96). -/
def shiftAt (f : Byte → Bool → ShiftResult) (ea : Addr) (s : State) : State :=
  let r := f (s.read ea) s.flags.c
  (s.write ea r.value).setFlags (s.flags.afterShift r)

/-- A shift or rotate of A (rules R91, R93, R95, R97). -/
def shiftA (f : Byte → Bool → ShiftResult) (s : State) : State :=
  let r := f s.a s.flags.c
  (s.setA r.value).setFlags (s.flags.afterShift r)

/-- BIT with the byte `m` (rule R98). -/
def bitTest (m : Byte) (s : State) : State := s.setFlags (s.flags.afterBit s.a m)

/-- AND with the byte `m` (rule R99). -/
def andA (m : Byte) (s : State) : State := loadA (s.a &&& m) s
/-- ORA with the byte `m` (rule R100). -/
def orA (m : Byte) (s : State) : State := loadA (s.a ||| m) s
/-- EOR with the byte `m` (rule R101). -/
def eorA (m : Byte) (s : State) : State := loadA (s.a ^^^ m) s

/-- INC or DEC of the byte at `ea`: one read, then one write, and the NZ update (rules R27, R102, R103). -/
def updateAt (f : Byte → Byte) (ea : Addr) (s : State) : State :=
  (s.write ea (f (s.read ea))).setFlags (s.flags.setNZ (f (s.read ea)))

/-- ASL A (R91, R63). -/
def execAslAcc (s : State) : Outcome :=
  retire 0 (shiftA shiftLeft s)

/-- ASL $hh (R90, R65). -/
def execAslZp (z : Byte) (s : State) : Outcome :=
  retire 1 (shiftAt shiftLeft (eaZeroPage z) s)

/-- ASL $hh,X (R90, R66). -/
def execAslZpX (z : Byte) (s : State) : Outcome :=
  retire 1 (shiftAt shiftLeft (eaZeroPageX z s) s)

/-- ASL $hhhh (R90, R68). -/
def execAslAbs (w : Addr) (s : State) : Outcome :=
  retire 2 (shiftAt shiftLeft (eaAbsolute w) s)

/-- ASL $hhhh,X (R90, R69). -/
def execAslAbsX (w : Addr) (s : State) : Outcome :=
  retire 2 (shiftAt shiftLeft (eaAbsoluteX w s) s)

/-- LSR A (R93, R63). -/
def execLsrAcc (s : State) : Outcome :=
  retire 0 (shiftA shiftRight s)

/-- LSR $hh (R92, R65). -/
def execLsrZp (z : Byte) (s : State) : Outcome :=
  retire 1 (shiftAt shiftRight (eaZeroPage z) s)

/-- LSR $hh,X (R92, R66). -/
def execLsrZpX (z : Byte) (s : State) : Outcome :=
  retire 1 (shiftAt shiftRight (eaZeroPageX z s) s)

/-- LSR $hhhh (R92, R68). -/
def execLsrAbs (w : Addr) (s : State) : Outcome :=
  retire 2 (shiftAt shiftRight (eaAbsolute w) s)

/-- LSR $hhhh,X (R92, R69). -/
def execLsrAbsX (w : Addr) (s : State) : Outcome :=
  retire 2 (shiftAt shiftRight (eaAbsoluteX w s) s)

/-- ROL A (R95, R63). -/
def execRolAcc (s : State) : Outcome :=
  retire 0 (shiftA rotateLeft s)

/-- ROL $hh (R94, R65). -/
def execRolZp (z : Byte) (s : State) : Outcome :=
  retire 1 (shiftAt rotateLeft (eaZeroPage z) s)

/-- ROL $hh,X (R94, R66). -/
def execRolZpX (z : Byte) (s : State) : Outcome :=
  retire 1 (shiftAt rotateLeft (eaZeroPageX z s) s)

/-- ROL $hhhh (R94, R68). -/
def execRolAbs (w : Addr) (s : State) : Outcome :=
  retire 2 (shiftAt rotateLeft (eaAbsolute w) s)

/-- ROL $hhhh,X (R94, R69). -/
def execRolAbsX (w : Addr) (s : State) : Outcome :=
  retire 2 (shiftAt rotateLeft (eaAbsoluteX w s) s)

/-- ROR A (R97, R63). -/
def execRorAcc (s : State) : Outcome :=
  retire 0 (shiftA rotateRight s)

/-- ROR $hh (R96, R65). -/
def execRorZp (z : Byte) (s : State) : Outcome :=
  retire 1 (shiftAt rotateRight (eaZeroPage z) s)

/-- ROR $hh,X (R96, R66). -/
def execRorZpX (z : Byte) (s : State) : Outcome :=
  retire 1 (shiftAt rotateRight (eaZeroPageX z s) s)

/-- ROR $hhhh (R96, R68). -/
def execRorAbs (w : Addr) (s : State) : Outcome :=
  retire 2 (shiftAt rotateRight (eaAbsolute w) s)

/-- ROR $hhhh,X (R96, R69). -/
def execRorAbsX (w : Addr) (s : State) : Outcome :=
  retire 2 (shiftAt rotateRight (eaAbsoluteX w s) s)

/-- BIT $hh (R98, R65). -/
def execBitZp (z : Byte) (s : State) : Outcome :=
  retire 1 (bitTest (s.read (eaZeroPage z)) s)

/-- BIT $hhhh (R98, R68). -/
def execBitAbs (w : Addr) (s : State) : Outcome :=
  retire 2 (bitTest (s.read (eaAbsolute w)) s)

/-- AND #$hh (R99, R64). -/
def execAndImm (v : Byte) (s : State) : Outcome :=
  retire 1 (andA v s)

/-- AND $hh (R99, R65). -/
def execAndZp (z : Byte) (s : State) : Outcome :=
  retire 1 (andA (s.read (eaZeroPage z)) s)

/-- AND $hh,X (R99, R66). -/
def execAndZpX (z : Byte) (s : State) : Outcome :=
  retire 1 (andA (s.read (eaZeroPageX z s)) s)

/-- AND $hhhh (R99, R68). -/
def execAndAbs (w : Addr) (s : State) : Outcome :=
  retire 2 (andA (s.read (eaAbsolute w)) s)

/-- AND $hhhh,X (R99, R69). -/
def execAndAbsX (w : Addr) (s : State) : Outcome :=
  retire 2 (andA (s.read (eaAbsoluteX w s)) s)

/-- AND $hhhh,Y (R99, R70). -/
def execAndAbsY (w : Addr) (s : State) : Outcome :=
  retire 2 (andA (s.read (eaAbsoluteY w s)) s)

/-- AND ($hh,X) (R99, R73). -/
def execAndIndX (z : Byte) (s : State) : Outcome :=
  retire 1 (andA (s.read (eaIndexedIndirect z s)) s)

/-- AND ($hh),Y (R99, R74). -/
def execAndIndY (z : Byte) (s : State) : Outcome :=
  retire 1 (andA (s.read (eaIndirectIndexed z s)) s)

/-- ORA #$hh (R100, R64). -/
def execOraImm (v : Byte) (s : State) : Outcome :=
  retire 1 (orA v s)

/-- ORA $hh (R100, R65). -/
def execOraZp (z : Byte) (s : State) : Outcome :=
  retire 1 (orA (s.read (eaZeroPage z)) s)

/-- ORA $hh,X (R100, R66). -/
def execOraZpX (z : Byte) (s : State) : Outcome :=
  retire 1 (orA (s.read (eaZeroPageX z s)) s)

/-- ORA $hhhh (R100, R68). -/
def execOraAbs (w : Addr) (s : State) : Outcome :=
  retire 2 (orA (s.read (eaAbsolute w)) s)

/-- ORA $hhhh,X (R100, R69). -/
def execOraAbsX (w : Addr) (s : State) : Outcome :=
  retire 2 (orA (s.read (eaAbsoluteX w s)) s)

/-- ORA $hhhh,Y (R100, R70). -/
def execOraAbsY (w : Addr) (s : State) : Outcome :=
  retire 2 (orA (s.read (eaAbsoluteY w s)) s)

/-- ORA ($hh,X) (R100, R73). -/
def execOraIndX (z : Byte) (s : State) : Outcome :=
  retire 1 (orA (s.read (eaIndexedIndirect z s)) s)

/-- ORA ($hh),Y (R100, R74). -/
def execOraIndY (z : Byte) (s : State) : Outcome :=
  retire 1 (orA (s.read (eaIndirectIndexed z s)) s)

/-- EOR #$hh (R101, R64). -/
def execEorImm (v : Byte) (s : State) : Outcome :=
  retire 1 (eorA v s)

/-- EOR $hh (R101, R65). -/
def execEorZp (z : Byte) (s : State) : Outcome :=
  retire 1 (eorA (s.read (eaZeroPage z)) s)

/-- EOR $hh,X (R101, R66). -/
def execEorZpX (z : Byte) (s : State) : Outcome :=
  retire 1 (eorA (s.read (eaZeroPageX z s)) s)

/-- EOR $hhhh (R101, R68). -/
def execEorAbs (w : Addr) (s : State) : Outcome :=
  retire 2 (eorA (s.read (eaAbsolute w)) s)

/-- EOR $hhhh,X (R101, R69). -/
def execEorAbsX (w : Addr) (s : State) : Outcome :=
  retire 2 (eorA (s.read (eaAbsoluteX w s)) s)

/-- EOR $hhhh,Y (R101, R70). -/
def execEorAbsY (w : Addr) (s : State) : Outcome :=
  retire 2 (eorA (s.read (eaAbsoluteY w s)) s)

/-- EOR ($hh,X) (R101, R73). -/
def execEorIndX (z : Byte) (s : State) : Outcome :=
  retire 1 (eorA (s.read (eaIndexedIndirect z s)) s)

/-- EOR ($hh),Y (R101, R74). -/
def execEorIndY (z : Byte) (s : State) : Outcome :=
  retire 1 (eorA (s.read (eaIndirectIndexed z s)) s)

/-- INC $hh (R102, R65). -/
def execIncZp (z : Byte) (s : State) : Outcome :=
  retire 1 (updateAt increment (eaZeroPage z) s)

/-- INC $hh,X (R102, R66). -/
def execIncZpX (z : Byte) (s : State) : Outcome :=
  retire 1 (updateAt increment (eaZeroPageX z s) s)

/-- INC $hhhh (R102, R68). -/
def execIncAbs (w : Addr) (s : State) : Outcome :=
  retire 2 (updateAt increment (eaAbsolute w) s)

/-- INC $hhhh,X (R102, R69). -/
def execIncAbsX (w : Addr) (s : State) : Outcome :=
  retire 2 (updateAt increment (eaAbsoluteX w s) s)

/-- DEC $hh (R103, R65). -/
def execDecZp (z : Byte) (s : State) : Outcome :=
  retire 1 (updateAt decrement (eaZeroPage z) s)

/-- DEC $hh,X (R103, R66). -/
def execDecZpX (z : Byte) (s : State) : Outcome :=
  retire 1 (updateAt decrement (eaZeroPageX z s) s)

/-- DEC $hhhh (R103, R68). -/
def execDecAbs (w : Addr) (s : State) : Outcome :=
  retire 2 (updateAt decrement (eaAbsolute w) s)

/-- DEC $hhhh,X (R103, R69). -/
def execDecAbsX (w : Addr) (s : State) : Outcome :=
  retire 2 (updateAt decrement (eaAbsoluteX w s) s)

/-- INX (R104, R62). -/
def execInx (s : State) : Outcome :=
  retire 0 (loadX (increment s.x) s)

/-- INY (R105, R62). -/
def execIny (s : State) : Outcome :=
  retire 0 (loadY (increment s.y) s)

/-- DEX (R106, R62). -/
def execDex (s : State) : Outcome :=
  retire 0 (loadX (decrement s.x) s)

/-- DEY (R107, R62). -/
def execDey (s : State) : Outcome :=
  retire 0 (loadY (decrement s.y) s)

end Sys2Proof.Machine
end

