-- ==== Sys2Proof/Machine/StackSystem.lean ====
section
/-! DEFINITION. The meanings of PHA, PHP, PLA, PLP, BRK and RTI (spec 44_stack_system.md). That PLA updates N and Z is
decision D6 (log entry 12); that BRK's return address is two past its opcode is decision D4 (log entry 10). -/

namespace Sys2Proof.Machine

/-- PHA (R125, R62). -/
def execPha (s : State) : Outcome :=
  retire 0 (s.push s.a)

/-- PHP (R126, R62). -/
def execPhp (s : State) : Outcome :=
  retire 0 (s.push (s.flags.pack true))

/-- PLA (R127, R62). -/
def execPla (s : State) : Outcome :=
  retire 0 (loadA s.pop.1 s.pop.2)

/-- PLP (R128, R62). -/
def execPlp (s : State) : Outcome :=
  retire 0 (s.pop.2.setFlags (Flags.unpack s.pop.1))

/-- BRK (R129, R62). -/
def execBrk (s : State) : Outcome :=
  .next (trapEntry (s.pc + 2#16) s)

/-- RTI (R130, R62). -/
def execRti (s : State) : Outcome :=
  .next (trapReturn s)

end Sys2Proof.Machine
end

