-- ==== Sys2Proof/Machine/Transfer.lean ====
section
/-! DEFINITION. The meanings of the register transfers, the loads and the stores (spec 46_transfer_load_store.md). TXS
and the stores write no flag. -/

namespace Sys2Proof.Machine

/-- TAX (R145, R62). -/
def execTax (s : State) : Outcome :=
  retire 0 (loadX s.a s)

/-- TAY (R146, R62). -/
def execTay (s : State) : Outcome :=
  retire 0 (loadY s.a s)

/-- TXA (R147, R62). -/
def execTxa (s : State) : Outcome :=
  retire 0 (loadA s.x s)

/-- TYA (R148, R62). -/
def execTya (s : State) : Outcome :=
  retire 0 (loadA s.y s)

/-- TSX (R149, R62). -/
def execTsx (s : State) : Outcome :=
  retire 0 (loadX s.sp s)

/-- TXS (R150, R62). -/
def execTxs (s : State) : Outcome :=
  retire 0 (s.setSP s.x)

/-- LDA #$hh (R151, R64). -/
def execLdaImm (v : Byte) (s : State) : Outcome :=
  retire 1 (loadA v s)

/-- LDA $hh (R151, R65). -/
def execLdaZp (z : Byte) (s : State) : Outcome :=
  retire 1 (loadA (s.read (eaZeroPage z)) s)

/-- LDA $hh,X (R151, R66). -/
def execLdaZpX (z : Byte) (s : State) : Outcome :=
  retire 1 (loadA (s.read (eaZeroPageX z s)) s)

/-- LDA $hhhh (R151, R68). -/
def execLdaAbs (w : Addr) (s : State) : Outcome :=
  retire 2 (loadA (s.read (eaAbsolute w)) s)

/-- LDA $hhhh,X (R151, R69). -/
def execLdaAbsX (w : Addr) (s : State) : Outcome :=
  retire 2 (loadA (s.read (eaAbsoluteX w s)) s)

/-- LDA $hhhh,Y (R151, R70). -/
def execLdaAbsY (w : Addr) (s : State) : Outcome :=
  retire 2 (loadA (s.read (eaAbsoluteY w s)) s)

/-- LDA ($hh,X) (R151, R73). -/
def execLdaIndX (z : Byte) (s : State) : Outcome :=
  retire 1 (loadA (s.read (eaIndexedIndirect z s)) s)

/-- LDA ($hh),Y (R151, R74). -/
def execLdaIndY (z : Byte) (s : State) : Outcome :=
  retire 1 (loadA (s.read (eaIndirectIndexed z s)) s)

/-- LDX #$hh (R152, R64). -/
def execLdxImm (v : Byte) (s : State) : Outcome :=
  retire 1 (loadX v s)

/-- LDX $hh (R152, R65). -/
def execLdxZp (z : Byte) (s : State) : Outcome :=
  retire 1 (loadX (s.read (eaZeroPage z)) s)

/-- LDX $hh,Y (R152, R67). -/
def execLdxZpY (z : Byte) (s : State) : Outcome :=
  retire 1 (loadX (s.read (eaZeroPageY z s)) s)

/-- LDX $hhhh (R152, R68). -/
def execLdxAbs (w : Addr) (s : State) : Outcome :=
  retire 2 (loadX (s.read (eaAbsolute w)) s)

/-- LDX $hhhh,Y (R152, R70). -/
def execLdxAbsY (w : Addr) (s : State) : Outcome :=
  retire 2 (loadX (s.read (eaAbsoluteY w s)) s)

/-- LDY #$hh (R153, R64). -/
def execLdyImm (v : Byte) (s : State) : Outcome :=
  retire 1 (loadY v s)

/-- LDY $hh (R153, R65). -/
def execLdyZp (z : Byte) (s : State) : Outcome :=
  retire 1 (loadY (s.read (eaZeroPage z)) s)

/-- LDY $hh,X (R153, R66). -/
def execLdyZpX (z : Byte) (s : State) : Outcome :=
  retire 1 (loadY (s.read (eaZeroPageX z s)) s)

/-- LDY $hhhh (R153, R68). -/
def execLdyAbs (w : Addr) (s : State) : Outcome :=
  retire 2 (loadY (s.read (eaAbsolute w)) s)

/-- LDY $hhhh,X (R153, R69). -/
def execLdyAbsX (w : Addr) (s : State) : Outcome :=
  retire 2 (loadY (s.read (eaAbsoluteX w s)) s)

/-- STA $hh (R154, R65). -/
def execStaZp (z : Byte) (s : State) : Outcome :=
  retire 1 (s.write (eaZeroPage z) s.a)

/-- STA $hh,X (R154, R66). -/
def execStaZpX (z : Byte) (s : State) : Outcome :=
  retire 1 (s.write (eaZeroPageX z s) s.a)

/-- STA $hhhh (R154, R68). -/
def execStaAbs (w : Addr) (s : State) : Outcome :=
  retire 2 (s.write (eaAbsolute w) s.a)

/-- STA $hhhh,X (R154, R69). -/
def execStaAbsX (w : Addr) (s : State) : Outcome :=
  retire 2 (s.write (eaAbsoluteX w s) s.a)

/-- STA $hhhh,Y (R154, R70). -/
def execStaAbsY (w : Addr) (s : State) : Outcome :=
  retire 2 (s.write (eaAbsoluteY w s) s.a)

/-- STA ($hh,X) (R154, R73). -/
def execStaIndX (z : Byte) (s : State) : Outcome :=
  retire 1 (s.write (eaIndexedIndirect z s) s.a)

/-- STA ($hh),Y (R154, R74). -/
def execStaIndY (z : Byte) (s : State) : Outcome :=
  retire 1 (s.write (eaIndirectIndexed z s) s.a)

/-- STX $hh (R155, R65). -/
def execStxZp (z : Byte) (s : State) : Outcome :=
  retire 1 (s.write (eaZeroPage z) s.x)

/-- STX $hh,Y (R155, R67). -/
def execStxZpY (z : Byte) (s : State) : Outcome :=
  retire 1 (s.write (eaZeroPageY z s) s.x)

/-- STX $hhhh (R155, R68). -/
def execStxAbs (w : Addr) (s : State) : Outcome :=
  retire 2 (s.write (eaAbsolute w) s.x)

/-- STY $hh (R156, R65). -/
def execStyZp (z : Byte) (s : State) : Outcome :=
  retire 1 (s.write (eaZeroPage z) s.y)

/-- STY $hh,X (R156, R66). -/
def execStyZpX (z : Byte) (s : State) : Outcome :=
  retire 1 (s.write (eaZeroPageX z s) s.y)

/-- STY $hhhh (R156, R68). -/
def execStyAbs (w : Addr) (s : State) : Outcome :=
  retire 2 (s.write (eaAbsolute w) s.y)

end Sys2Proof.Machine
end

