-- ==== Sys2Proof/Machine/Fetch.lean ====
section
/-! DEFINITION. Fetching and decoding the instruction at the program counter (spec 40_cycle_and_addressing.md rule R60,
30_encoding.md rules R41 to R43), and placing one there. -/

namespace Sys2Proof.Machine

/-- What the opcode byte at PC selects. -/
inductive Fetched where
  /-- A legal instruction, with its operand assembled from the bytes after the opcode. -/
  | legal (i : Instr)
  /-- A dispatch-table slot marked illegal (rule R46). -/
  | illegal (op : Byte)
deriving DecidableEq, Repr

/-- Read the opcode byte at PC, look it up, and assemble the operand from the bytes at `PC + 1` and `PC + 2`, as many as
the form takes (rules R36 and R42). No read has a side effect (rule R20). -/
def fetch (s : State) : Fetched :=
  match dispatchEntry (s.read s.pc) with
  | none => .illegal (s.read s.pc)
  | some row => .legal (row.form.build (s.read (s.pc + 1#16)) (s.read (s.pc + 2#16)))

/-- A state with bytes stored from an address upwards, with 16-bit wrap. -/
def State.placeBytes (s : State) (a : Addr) (bytes : List Byte) : State :=
  match bytes with
  | [] => s
  | b :: rest => State.placeBytes (s.write a b) (a + 1#16) rest

/-- A running state whose next instruction is the one with these bytes. -/
def State.placeInstruction (s : State) (bytes : List Byte) : State :=
  (s.placeBytes s.pc bytes).setStatus .running

end Sys2Proof.Machine
end

