-- ==== Sys2Proof/Machine/Step.lean ====
section
/-! DEFINITION. One step of the machine: the `tick` of spec 40_cycle_and_addressing.md rule R60. -/

namespace Sys2Proof.Machine

/-- `tick`: a Faulted core does nothing (rules R14 and R162); a running one executes the instruction at PC, or takes the
illegal-opcode fault there (rule R161). -/
def step (s : State) : Host.Outcome State Fault Refusal :=
  match s.status with
  | .faulted _ _ => .next s
  | .running =>
    match fetch s with
    | .illegal op => .next (raiseIllegalOpcode op s.pc s)
    | .legal i => exec i s

/-- The state with the instruction of a word, numbered as spec/opcode_table.json numbers it, stored at PC, and running.
It stands for the host's `load` of a program (rule R177; log entry 1). -/
def State.withFetchWord (s : State) (nbits w : Nat) : State := s.placeInstruction (tableBytes nbits w)

end Sys2Proof.Machine
end

