-- ==== Sys2Proof/Machine/Assembler.lean ====
section
/-! DEFINITION. The assembler's source language (spec 30_encoding.md rules R48 to R54). It is toolchain, not hardware:
no rule of the machine depends on it, and no other file of the model uses it. Text is a list of characters. -/

namespace Sys2Proof.Machine.Assembler

/-- Source text. -/
abbrev Text := List Char

/-- Why a line has no bytes (rule R52). -/
inductive Reason where
  | unknownMnemonic
  | noMatchingVariant
deriving DecidableEq, Repr

/-- AssemblyError(line text, reason) (rule R52). -/
structure AssemblyError where
  line : Text
  reason : Reason
deriving DecidableEq, Repr

/-! ## Characters -/

/-- A space, a tab or a carriage return (log entry 17). -/
def isBlank (c : Char) : Bool := c == ' ' || c == '\t' || c == '\r'

/-- The upper-case letter of an ASCII lower-case one; mnemonics and hex digits are case-insensitive (rule R48). -/
def upper (c : Char) : Char := if 97 ≤ c.toNat && c.toNat ≤ 122 then Char.ofNat (c.toNat - 32) else c

/-- The value of a decimal digit. -/
def decimalDigit (c : Char) : Option Nat :=
  if 48 ≤ c.toNat && c.toNat ≤ 57 then some (c.toNat - 48) else none

/-- The value of a hex digit, in either case (rule R48). -/
def hexDigit (c : Char) : Option Nat :=
  match decimalDigit c with
  | some n => some n
  | none => if 65 ≤ (upper c).toNat && (upper c).toNat ≤ 70 then some ((upper c).toNat - 55) else none

/-- Two hex digits. -/
def hexByte (h l : Char) : Option Byte := do
  return BitVec.ofNat 8 (16 * (← hexDigit h) + (← hexDigit l))

/-- Four hex digits. -/
def hexWord (a b c d : Char) : Option Addr := do
  return wordOf (← hexByte c d) (← hexByte a b)

/-- A non-empty row of decimal digits, after a value already read. -/
def decimalFrom (acc : Nat) (t : Text) : Option Nat :=
  match t with
  | [] => some acc
  | c :: rest =>
    match decimalDigit c with
    | some n => decimalFrom (10 * acc + n) rest
    | none => none

/-- A decimal number of at least one digit. -/
def decimalNumber (t : Text) : Option Nat :=
  match t with
  | [] => none
  | c :: rest =>
    match decimalDigit c with
    | some n => decimalFrom n rest
    | none => none

/-- A decimal number with an optional sign, in the range of a branch offset (rules R48 and R49). -/
def signedOffset (t : Text) : Option Int :=
  let value : Option Int :=
    match t with
    | '-' :: rest => (decimalNumber rest).map (fun n => -(n : Int))
    | '+' :: rest => (decimalNumber rest).map (fun n => (n : Int))
    | other => (decimalNumber other).map (fun n => (n : Int))
  value.filter offsetInRange

/-! ## Operands and mnemonics -/

/-- The operand grammar of each mode (rule R49): the operand, if the whole text has the mode's form. -/
def parseOperand (mode : Mode) (t : Text) : Option Operand :=
  match mode, t with
  | .implied, [] => some .implied
  | .accumulator, ['A'] => some .accumulator
  | .immediate, ['#', '$', l] => (hexByte '0' l).map .immediate
  | .immediate, ['#', '$', h, l] => (hexByte h l).map .immediate
  | .zeroPage, ['$', h, l] => (hexByte h l).map .zeroPage
  | .zeroPageX, ['$', h, l, ',', 'X'] => (hexByte h l).map .zeroPageX
  | .zeroPageY, ['$', h, l, ',', 'Y'] => (hexByte h l).map .zeroPageY
  | .absolute, ['$', a, b, c, d] => (hexWord a b c d).map .absolute
  | .absoluteX, ['$', a, b, c, d, ',', 'X'] => (hexWord a b c d).map .absoluteX
  | .absoluteY, ['$', a, b, c, d, ',', 'Y'] => (hexWord a b c d).map .absoluteY
  | .indirect, ['(', '$', a, b, c, d, ')'] => (hexWord a b c d).map .indirect
  | .indexedIndirect, ['(', '$', h, l, ',', 'X', ')'] => (hexByte h l).map .indexedIndirect
  | .indirectIndexed, ['(', '$', h, l, ')', ',', 'Y'] => (hexByte h l).map .indirectIndexed
  | .relative, text => (signedOffset text).map .relative
  | _, _ => none

/-- The operand bytes that a line emits (rules R49 and R51). -/
def operandBytes (o : Operand) : List Byte :=
  match o with
  | .implied | .accumulator => []
  | .immediate v => [v]
  | .zeroPage z | .zeroPageX z | .zeroPageY z | .indexedIndirect z | .indirectIndexed z => [z]
  | .absolute w | .absoluteX w | .absoluteY w | .indirect w => [loByte w, hiByte w]
  | .relative d => [offsetByte d]

/-- A mnemonic as source text. -/
def mnemonicText (m : Mnemonic) : Text :=
  match m with
  | .ADC => ['A', 'D', 'C']
  | .SBC => ['S', 'B', 'C']
  | .CMP => ['C', 'M', 'P']
  | .CPX => ['C', 'P', 'X']
  | .CPY => ['C', 'P', 'Y']
  | .ASL => ['A', 'S', 'L']
  | .LSR => ['L', 'S', 'R']
  | .ROL => ['R', 'O', 'L']
  | .ROR => ['R', 'O', 'R']
  | .BIT => ['B', 'I', 'T']
  | .AND => ['A', 'N', 'D']
  | .ORA => ['O', 'R', 'A']
  | .EOR => ['E', 'O', 'R']
  | .INC => ['I', 'N', 'C']
  | .DEC => ['D', 'E', 'C']
  | .INX => ['I', 'N', 'X']
  | .INY => ['I', 'N', 'Y']
  | .DEX => ['D', 'E', 'X']
  | .DEY => ['D', 'E', 'Y']
  | .BCC => ['B', 'C', 'C']
  | .BCS => ['B', 'C', 'S']
  | .BEQ => ['B', 'E', 'Q']
  | .BNE => ['B', 'N', 'E']
  | .BMI => ['B', 'M', 'I']
  | .BPL => ['B', 'P', 'L']
  | .BVC => ['B', 'V', 'C']
  | .BVS => ['B', 'V', 'S']
  | .JMP => ['J', 'M', 'P']
  | .JSR => ['J', 'S', 'R']
  | .RTS => ['R', 'T', 'S']
  | .PHA => ['P', 'H', 'A']
  | .PHP => ['P', 'H', 'P']
  | .PLA => ['P', 'L', 'A']
  | .PLP => ['P', 'L', 'P']
  | .BRK => ['B', 'R', 'K']
  | .RTI => ['R', 'T', 'I']
  | .SEC => ['S', 'E', 'C']
  | .CLC => ['C', 'L', 'C']
  | .SED => ['S', 'E', 'D']
  | .CLD => ['C', 'L', 'D']
  | .SEI => ['S', 'E', 'I']
  | .CLI => ['C', 'L', 'I']
  | .CLV => ['C', 'L', 'V']
  | .NOP => ['N', 'O', 'P']
  | .TAX => ['T', 'A', 'X']
  | .TAY => ['T', 'A', 'Y']
  | .TXA => ['T', 'X', 'A']
  | .TYA => ['T', 'Y', 'A']
  | .TSX => ['T', 'S', 'X']
  | .TXS => ['T', 'X', 'S']
  | .LDA => ['L', 'D', 'A']
  | .LDX => ['L', 'D', 'X']
  | .LDY => ['L', 'D', 'Y']
  | .STA => ['S', 'T', 'A']
  | .STX => ['S', 'T', 'X']
  | .STY => ['S', 'T', 'Y']

/-! ## Lines and programs -/

/-- The text without blanks at its two ends. -/
def trim (t : Text) : Text := ((t.dropWhile isBlank).reverse.dropWhile isBlank).reverse

/-- The line without its comment and the blanks around it (rule R48 step 1). -/
def stripped (line : Text) : Text := trim (line.takeWhile (· != ';'))

/-- The rows of a mnemonic, in the table's order (rule R50); none if the mnemonic is unknown. -/
def variants (mnemonic : Text) : List Row :=
  opcodeTable.filter (fun r => mnemonicText r.mnemonic == mnemonic.map upper)

/-- The first variant whose grammar the operand text matches, with the operand (rule R50). -/
def firstMatch (rows : List Row) (operand : Text) : Option (Row × Operand) :=
  match rows with
  | [] => none
  | r :: rest =>
    match parseOperand r.mode operand with
    | some o => some (r, o)
    | none => firstMatch rest operand

/-- The bytes of one line: none for a blank or comment line, else the opcode byte and the operand bytes (rules R48 to
R52). -/
def assembleLine (line : Text) : Except AssemblyError (List Byte) :=
  match stripped line with
  | [] => .ok []
  | code =>
    match variants (code.takeWhile (fun c => !isBlank c)) with
    | [] => .error { line := line, reason := .unknownMnemonic }
    | rows =>
      match firstMatch rows (trim (code.dropWhile (fun c => !isBlank c))) with
      | some (r, o) => .ok (r.opcode :: operandBytes o)
      | none => .error { line := line, reason := .noMatchingVariant }

/-- The per-line byte groups of a program, or the error of its first malformed line and no output at all (rule R52). -/
def assembleLines (lines : List Text) : Except AssemblyError (List (List Byte)) :=
  match lines with
  | [] => .ok []
  | line :: rest =>
    match assembleLine line with
    | .error e => .error e
    | .ok group =>
      match assembleLines rest with
      | .error e => .error e
      | .ok groups => .ok (group :: groups)

/-- A source text cut at its line ends. -/
def splitLines (t : Text) : List Text :=
  match t with
  | [] => [[]]
  | c :: rest =>
    if c == '\n' then [] :: splitLines rest
    else
      match splitLines rest with
      | line :: lines => (c :: line) :: lines
      | [] => [[c]]

/-- The assembled program as one contiguous byte sequence for loading (rule R51). -/
def assemble (source : Text) : Except AssemblyError (List Byte) :=
  match assembleLines (splitLines source) with
  | .error e => .error e
  | .ok groups => .ok groups.flatten

/-! ## The canonical text of an instruction (rule R54) -/

/-- A hex digit as a character. -/
def hexChar (n : Nat) : Char := if n < 10 then Char.ofNat (48 + n) else Char.ofNat (55 + n)

/-- A byte as two hex digits. -/
def byteText (b : Byte) : Text := [hexChar (b.toNat / 16), hexChar (b.toNat % 16)]

/-- A 16-bit value as four hex digits. -/
def wordText (w : Addr) : Text := byteText (hiByte w) ++ byteText (loByte w)

/-- A number below 1000 in decimal, without leading zeros. -/
def decimalText (n : Nat) : Text :=
  if n < 10 then [hexChar n]
  else if n < 100 then [hexChar (n / 10), hexChar (n % 10)]
  else [hexChar (n / 100), hexChar (n / 10 % 10), hexChar (n % 10)]

/-- An operand in the syntax of rule R49. -/
def operandText (o : Operand) : Text :=
  match o with
  | .implied => []
  | .accumulator => ['A']
  | .immediate v => ['#', '$'] ++ byteText v
  | .zeroPage z => '$' :: byteText z
  | .zeroPageX z => '$' :: byteText z ++ [',', 'X']
  | .zeroPageY z => '$' :: byteText z ++ [',', 'Y']
  | .absolute w => '$' :: wordText w
  | .absoluteX w => '$' :: wordText w ++ [',', 'X']
  | .absoluteY w => '$' :: wordText w ++ [',', 'Y']
  | .indirect w => ['(', '$'] ++ wordText w ++ [')']
  | .indexedIndirect z => ['(', '$'] ++ byteText z ++ [',', 'X', ')']
  | .indirectIndexed z => ['(', '$'] ++ byteText z ++ [')', ',', 'Y']
  | .relative d => if d < 0 then '-' :: decimalText d.natAbs else decimalText d.natAbs

/-- An instruction as a source line. -/
def instrText (i : Instr) : Text :=
  match operandText i.operand with
  | [] => mnemonicText i.mnemonic
  | operand => mnemonicText i.mnemonic ++ ' ' :: operand

end Sys2Proof.Machine.Assembler
end

