-- ==== Sys2Proof/Machine/Embedding.lean ====
section
/-! DEFINITION. What the host does to a core (spec 70_reset_and_hazards.md): construct, load, tick, run and observe. All of
it happens between ticks (rule R185), and none of it is an instruction. -/

namespace Sys2Proof.Machine

/-! ## Construction and load -/

/-- The parameters of construction (rule R175 and spec 00_scope.md section 4). -/
structure Params where
  loadAddress : Addr
  spReset : Byte
  memInit : Addr → Byte

/-- The parameters at the spec's defaults (92_eei_decisions.md, "Open parameters"). -/
def Params.default : Params where
  loadAddress := Config.loadAddress
  spReset := Config.spReset
  memInit := fun a => Config.memInit a.toNat

/-- The memory list that holds a byte for every address, in canonical form. -/
def Memory.ofBytes (f : Addr → Byte) : Memory :=
  (List.range Config.memSize).filterMap (fun k =>
    if f (BitVec.ofNat 16 k) = Config.memInit k then none else some (k, f (BitVec.ofNat 16 k)))

/-- A core fresh from construction (rules R15 and R175), before any `load`. -/
def construct (p : Params) : State where
  a := 0x00#8
  x := 0x00#8
  y := 0x00#8
  sp := p.spReset
  pc := p.loadAddress
  flags := Flags.clear
  mem := Memory.ofBytes p.memInit
  status := .running

/-- `load` on memory: bytes past 0xFFFF are dropped, with no wrap and no error (rule R177). -/
def Memory.load (m : Memory) (k : Nat) (bytes : List Byte) : Memory :=
  match bytes with
  | [] => m
  | b :: rest => Memory.load (if k ≤ 0xFFFF then m.write k b else m) (k + 1) rest

/-- `load(bytes, at)`: memory only, not PC, not a register, a flag or the status (rules R162 and R177). -/
def State.load (s : State) (bytes : List Byte) (at_ : Addr) : State := s.setMem (s.mem.load at_.toNat bytes)

/-! ## Running -/

/-- `tick` as the total function from states to states that rule R162 says it is. -/
def tick (s : State) : State :=
  match step s with
  | .next t => t
  | .fault _ => s
  | .refused _ => s

/-- The condition of the `run` loop: running, and the byte at PC is not the sentinel (rule R179;
decisions D11 and D12; log entries 5 and 20). -/
def runs (stop : Byte) (s : State) : Bool := decide (s.status = .running) && (s.read s.pc != stop)

/-- `runN(stop, fuel)`: the number of ticks made and the state they lead to (rule R184; decision
D17; log entry 20). -/
def runN (stop : Byte) (fuel : Nat) (s : State) : Nat × State :=
  match fuel with
  | 0 => (0, s)
  | fuel + 1 => if runs stop s then ((runN stop fuel (tick s)).1 + 1, (runN stop fuel (tick s)).2) else (0, s)

/-- `run(stop)` from `s` ends in `t` (rule R179): some bound on the ticks is enough for the loop to leave in `t`. -/
def RunEnds (stop : Byte) (s t : State) : Prop := ∃ fuel, (runN stop fuel s).2 = t ∧ runs stop t = false

/-! ## Observation -/

/-- What `getState` shows (rule R180): the registers as numbers in their ranges, the six named flags, memory, and the
fault status (decision D18; log entry 19). -/
structure Snapshot where
  a : Nat
  x : Nat
  y : Nat
  programCounter : Nat
  stackPointer : Nat
  negative : Bool
  overflow : Bool
  decimal : Bool
  interruptDisable : Bool
  zero : Bool
  carry : Bool
  memory : Memory
  status : Status
deriving DecidableEq, Repr

/-- `getState()` (rule R180). -/
def getState (s : State) : Snapshot where
  a := s.a.toNat
  x := s.x.toNat
  y := s.y.toNat
  programCounter := s.pc.toNat
  stackPointer := s.sp.toNat
  negative := s.flags.n
  overflow := s.flags.v
  decimal := s.flags.d
  interruptDisable := s.flags.i
  zero := s.flags.z
  carry := s.flags.c
  memory := s.mem
  status := s.status

end Sys2Proof.Machine
end

