-- ==== Sys2Proof/Machine/Port.lean ====
section
/-! DEFINITION. The core seen through its memory interface: the byte transactions of one tick, in their order (spec
20_memory.md rules R36 and R37). It is written from the order of rule R36, beside the meanings and not from them, so that
the two views can be compared. -/

namespace Sys2Proof.Machine

/-- One transaction of the memory port (rule R37). -/
inductive Transaction where
  | read (addr : Addr) (data : Byte)
  | write (addr : Addr) (data : Byte)
deriving DecidableEq, Repr

/-- The core reads `a`, in state `s`. -/
def State.reads (s : State) (a : Addr) : Transaction := .read a (s.read a)

/-- The two reads of a zero-page pointer, low byte first (rule R25). -/
def pointerReads (z : Byte) (s : State) : List Transaction :=
  [s.reads (zeroPageAddr z), s.reads (zeroPageAddr (z + 1#8))]

/-- The reads of a resolver: operand bytes low then high, then pointer bytes low then high (rule R36 items 2 and 3). An
immediate's byte is read by the executor (rule R64). -/
def resolverReads (o : Operand) (s : State) : List Transaction :=
  match o with
  | .implied | .accumulator | .immediate _ => []
  | .zeroPage _ | .zeroPageX _ | .zeroPageY _ | .relative _ => [s.reads (s.pc + 1#16)]
  | .absolute _ | .absoluteX _ | .absoluteY _ => [s.reads (s.pc + 1#16), s.reads (s.pc + 2#16)]
  | .indirect w => [s.reads (s.pc + 1#16), s.reads (s.pc + 2#16), s.reads w, s.reads (w + 1#16)]
  | .indexedIndirect z => s.reads (s.pc + 1#16) :: pointerReads (z + s.x) s
  | .indirectIndexed z => s.reads (s.pc + 1#16) :: pointerReads z s

/-- What an executor does with its effective address (rule R75). -/
inductive DataAccess where
  /-- Nothing, or a use as a PC value. -/
  | none
  /-- It reads the byte. -/
  | read
  /-- It reads the byte and then writes what the function makes of it and the carry. -/
  | update (f : Byte → Bool → Byte)
  /-- It writes the byte. -/
  | write (v : Byte)

/-- The table of rule R75. -/
def dataAccess (m : Mnemonic) (s : State) : DataAccess :=
  match m with
  | .ADC | .SBC | .CMP | .CPX | .CPY | .AND | .ORA | .EOR | .BIT | .LDA | .LDX | .LDY => .read
  | .ASL => .update (fun v c => (shiftLeft v c).value)
  | .LSR => .update (fun v c => (shiftRight v c).value)
  | .ROL => .update (fun v c => (rotateLeft v c).value)
  | .ROR => .update (fun v c => (rotateRight v c).value)
  | .INC => .update (fun v _ => increment v)
  | .DEC => .update (fun v _ => decrement v)
  | .STA => .write s.a
  | .STX => .write s.x
  | .STY => .write s.y
  | .JMP | .JSR | .BCC | .BCS | .BEQ | .BNE | .BMI | .BPL | .BVC | .BVS => .none
  | .INX | .INY | .DEX | .DEY | .RTS | .PHA | .PHP | .PLA | .PLP | .BRK | .RTI => .none
  | .SEC | .CLC | .SED | .CLD | .SEI | .CLI | .CLV | .NOP => .none
  | .TAX | .TAY | .TXA | .TYA | .TSX | .TXS => .none

/-- The accesses of an executor at its effective address, read before write (rule R36 items 4 and 5). -/
def dataTransactions (i : Instr) (s : State) : List Transaction :=
  match resolve i.operand s with
  | none => []
  | some ea =>
    match dataAccess i.mnemonic s with
    | .none => []
    | .read => [s.reads ea]
    | .update f => [s.reads ea, .write ea (f (s.read ea) s.flags.c)]
    | .write v => [.write ea v]

/-- Pushes of bytes, in order, from a stack pointer down (rule R29). -/
def pushTransactions (sp : Byte) (bytes : List Byte) : List Transaction :=
  match bytes with
  | [] => []
  | b :: rest => .write (stackAddr sp) b :: pushTransactions (sp - 1#8) rest

/-- `n` pops, from a stack pointer up (rule R30). -/
def popTransactions (n : Nat) (sp : Byte) (s : State) : List Transaction :=
  match n with
  | 0 => []
  | n + 1 => s.reads (stackAddr (sp + 1#8)) :: popTransactions n (sp + 1#8) s

/-- The stack accesses of an executor (rule R36 item 5), and the vector reads of BRK after its pushes (item 6). The
vector is not in the stack page, so the pushes do not change what is read. -/
def stackTransactions (m : Mnemonic) (s : State) : List Transaction :=
  match m with
  | .PHA => pushTransactions s.sp [s.a]
  | .PHP => pushTransactions s.sp [s.flags.pack true]
  | .JSR => pushTransactions s.sp [hiByte (s.pc + 3#16), loByte (s.pc + 3#16)]
  | .BRK =>
    pushTransactions s.sp [hiByte (s.pc + 2#16), loByte (s.pc + 2#16), s.flags.pack true] ++
      [s.reads Config.breakVector, s.reads (Config.breakVector + 1#16)]
  | .PLA | .PLP => popTransactions 1 s.sp s
  | .RTS => popTransactions 2 s.sp s
  | .RTI => popTransactions 3 s.sp s
  | .ADC | .SBC | .CMP | .CPX | .CPY | .AND | .ORA | .EOR | .BIT | .LDA | .LDX | .LDY => []
  | .ASL | .LSR | .ROL | .ROR | .INC | .DEC | .STA | .STX | .STY | .INX | .INY | .DEX | .DEY => []
  | .JMP | .BCC | .BCS | .BEQ | .BNE | .BMI | .BPL | .BVC | .BVS => []
  | .SEC | .CLC | .SED | .CLD | .SEI | .CLI | .CLV | .NOP | .TAX | .TAY | .TXA | .TYA | .TSX | .TXS => []

/-- All the transactions of the tick from `s`, in order (rule R36). A Faulted core makes none (rule R162), and an illegal
opcode byte is the only byte its tick reads (rule R161). -/
def transactions (s : State) : List Transaction :=
  match s.status with
  | .faulted _ _ => []
  | .running =>
    match fetch s with
    | .illegal _ => [s.reads s.pc]
    | .legal i =>
      s.reads s.pc :: (resolverReads i.operand s ++ dataTransactions i s ++ stackTransactions i.mnemonic s)

/-- The memory block of the two-block view (rule R37): it answers reads with the last byte written, so a list of
transactions whose reads expect anything else does not happen. The memory after the list, if it happens. -/
def Memory.serve (m : Memory) (ts : List Transaction) : Option Memory :=
  match ts with
  | [] => some m
  | .read a d :: rest => if m.read a.toNat = d then Memory.serve m rest else none
  | .write a d :: rest => Memory.serve (m.write a.toNat d) rest

end Sys2Proof.Machine
end

