-- ==== Sys2Proof/Safety.lean ====
section
/-! DEFINITION. The terms the statements use: the invariant of the machine, runs, and which parts of the state two states
share. -/

namespace Sys2Proof.Machine

/-- The invariant that every step keeps: memory is in its canonical form, so that equal memories are equal data, and no
cell lies outside the 65536 of rule R12. -/
def Canonical (s : State) : Prop := s.mem.wf = true

/-- A safe state is one the core can go on from: it is not stopped by the illegal-opcode fault (rule R174). -/
def Safe (s : State) : Prop := s.status = .running

/-- `t` is reached from `s` by ticks. -/
inductive Reaches (s : State) : State → Prop where
  | refl : Reaches s s
  | tick {t u : State} (h : Reaches s t) (hstep : step t = .next u) : Reaches s u

/-- Every byte of memory reads the same in both states. -/
def SameMemory (s t : State) : Prop := ∀ b : Addr, t.read b = s.read b

/-- Every byte of memory outside a list of addresses reads the same in both states. -/
def SameMemoryExcept (stored : List Addr) (s t : State) : Prop := ∀ b : Addr, b ∉ stored → t.read b = s.read b

/-- The state with other values in the decimal and interrupt-disable flags. -/
def State.withDI (s : State) (d i : Bool) : State := s.setFlags { s.flags with d := d, i := i }

/-- The bytes of memory from an address upwards, with 16-bit wrap. -/
def State.bytesAt (s : State) (a : Addr) (n : Nat) : List Byte :=
  match n with
  | 0 => []
  | n + 1 => s.read a :: State.bytesAt s (a + 1#16) n

/-- Push bytes one after another. -/
def State.pushAll (s : State) (bytes : List Byte) : State :=
  match bytes with
  | [] => s
  | b :: rest => (s.push b).pushAll rest

/-- Pop `n` bytes, in the order they come. -/
def State.popAll (s : State) (n : Nat) : List Byte × State :=
  match n with
  | 0 => ([], s)
  | n + 1 => (s.pop.1 :: (s.pop.2.popAll n).1, (s.pop.2.popAll n).2)

end Sys2Proof.Machine
end

