-- ==== Sys2Proof/Certificates/Slice0/Obligations.lean ====
section
/-! DEFINITION. The statements about the machine. `i.length` is `1 + len` of the instruction, so that
`s.pc + BitVec.ofNat 16 i.length` is `next` (rule R60); `operandByte` and `resolve` are the operand's byte and effective
address, which statements of their own pin to the spec. "Rests on decision Dn" marks what the spec itself decided. Where a
statement gives a whole next state, that nothing else changes rests, beyond the rule's own words, on the frame rule of
decision D16 (log entry 18). The opcode bytes that rules repeat from the table of rule R44 are decision D2 (log entry 7) and
are stated under "Encoding" only. -/

open Sys2Proof Sys2Proof.Machine

/-! ## Reset, construction, load -/

/-- The state after reset (rules R15, R175, R176). Y, SP, the flags, memory and the status rest on decisions D9 to D11 of
the spec, and PC on the default of `LOAD_ADDRESS` (log entries 1 to 5), so the model's choice is stated here. -/
def Obligations.ResetStateHoldsTheDefaultValues : Prop :=
  State.reset.a = 0x00#8 ∧ State.reset.x = 0x00#8 ∧ State.reset.y = 0x00#8 ∧ State.reset.sp = 0xFF#8 ∧
    State.reset.pc = 0x0600#16 ∧
    State.reset.flags = { n := false, v := false, d := false, i := false, z := false, c := false } ∧
    State.reset.status = .running ∧ ∀ b : Addr, State.reset.read b = 0x00#8

/-- Construction with any parameters gives exactly the values of rule R15, a canonical memory that reads as `MEM_INIT`
says, and with the default parameters the reset state. Rests on decision D9 (log entries 1 to 4). -/
def Obligations.ConstructionSetsEveryPieceOfState : Prop :=
  (∀ p : Params,
    (construct p).a = 0x00#8 ∧ (construct p).x = 0x00#8 ∧ (construct p).y = 0x00#8 ∧ (construct p).sp = p.spReset ∧
      (construct p).pc = p.loadAddress ∧ (construct p).flags = Flags.clear ∧ (construct p).status = .running ∧
      (∀ b : Addr, (construct p).read b = p.memInit b) ∧ Canonical (construct p)) ∧
    construct Params.default = State.reset

/-- `load` (rule R177): each byte that fits below the ceiling is stored at its address, the rest are dropped, no other
byte changes (so nothing wraps to 0x0000), and nothing but memory changes. -/
def Obligations.LoadStoresBytesAndTruncatesAtTheCeiling : Prop :=
  ∀ (s : State) (bytes : List Byte) (at_ : Addr),
    (∀ (k : Nat) (b : Byte), bytes[k]? = some b → at_.toNat + k ≤ 0xFFFF →
      (s.load bytes at_).read (BitVec.ofNat 16 (at_.toNat + k)) = b) ∧
    (∀ b : Addr, b.toNat < at_.toNat ∨ at_.toNat + bytes.length ≤ b.toNat → (s.load bytes at_).read b = s.read b) ∧
    s.load bytes at_ = { s with mem := (s.load bytes at_).mem }

/-! ## Memory and the stack -/

/-- Rule R22: `MemWrite` sets one cell and changes nothing else, and the instructions that write memory are the listed
ones, the shifts in their memory forms only. The list is the spec's own inference from the instruction rules. -/
def Obligations.WriteSetsOneCellAndOnlyListedInstructionsWrite : Prop :=
  (∀ (s : State) (a : Addr) (v : Byte),
    (∀ b : Addr, (s.write a v).read b = if b = a then v else s.read b) ∧
      s.write a v = { s with mem := (s.write a v).mem }) ∧
  ∀ (i : Instr) (s t : State), exec i s = .next t →
    i.mnemonic ∉ ([.STA, .STX, .STY, .INC, .DEC, .ASL, .LSR, .ROL, .ROR, .PHA, .PHP, .JSR, .BRK] : List Mnemonic) ∨
      i.operand = .accumulator →
    t.mem = s.mem ∧ SameMemory s t

/-- Rule R24: `Read16` takes its high byte from `a + 1` with full 16-bit wrap, for the pointer of indirect mode and for
every 16-bit operand in the instruction stream as well. -/
def Obligations.WordReadsAreLittleEndianAndWrap : Prop :=
  (∀ (s : State) (a : Addr),
    (s.read16 a).toNat = (s.read a).toNat + 256 * (s.read (BitVec.ofNat 16 (a.toNat + 1))).toNat) ∧
  (∀ (s : State) (w : Addr), eaIndirect w s = s.read16 w) ∧
  ∀ (s : State) (i : Instr) (w : Addr), fetch s = .legal i →
    i.operand ∈ ([.absolute w, .absoluteX w, .absoluteY w, .indirect w] : List Operand) →
    w = s.read16 (s.pc + 1#16)

/-- Rule R131: pushing and then popping any sequence of at most 256 bytes restores SP and gives the bytes in reverse
order, from any starting SP. The bound of 256 is the spec's own inference from rules R29 and R30. -/
def Obligations.PoppingReversesPushing : Prop :=
  ∀ (s : State) (bytes : List Byte), bytes.length ≤ 256 →
    ((s.pushAll bytes).popAll bytes.length).1 = bytes.reverse ∧
      ((s.pushAll bytes).popAll bytes.length).2.sp = s.sp

/-- Rules R29 to R31: a push writes at the old SP and decrements, a pop increments and reads at the new SP, with 8-bit
wrap; a pushed word has its high byte at the old SP and its low byte one below, and popping it gives it back. -/
def Obligations.StackPrimitivesWriteReadAndWrap : Prop :=
  ∀ (s : State),
    (∀ v : Byte,
      (s.push v).sp = s.sp - 1#8 ∧
      (∀ b : Addr, (s.push v).read b = if b = 0x0100#16 + s.sp.setWidth 16 then v else s.read b) ∧
      s.push v = { s with mem := (s.push v).mem, sp := (s.push v).sp }) ∧
    s.pop = (s.read (0x0100#16 + (s.sp + 1#8).setWidth 16), { s with sp := s.sp + 1#8 }) ∧
    ∀ w : Addr,
      (s.push16 w).read (0x0100#16 + s.sp.setWidth 16) = hiByte w ∧
      (s.push16 w).read (0x0100#16 + (s.sp - 1#8).setWidth 16) = loByte w ∧
      (s.push16 w).sp = s.sp - 2#8 ∧
      s.pop16.1.toNat = (s.read (0x0100#16 + (s.sp + 1#8).setWidth 16)).toNat +
        256 * (s.read (0x0100#16 + (s.sp + 2#8).setWidth 16)).toNat ∧
      (s.push16 w).pop16.1 = w ∧ (s.push16 w).pop16.2.sp = s.sp

/-! ## Flags and operands -/

/-- Rules R10 and R11: the packed status byte, and that unpacking gives the flags back and ignores bits 5 and 4. -/
def Obligations.PackedStatusHasTheStatedLayout : Prop :=
  (∀ (f : Flags) (b : Bool),
    (f.pack b).toNat = 128 * f.n.toNat + 64 * f.v.toNat + 32 + 16 * b.toNat + 8 * f.d.toNat + 4 * f.i.toNat +
      2 * f.z.toNat + f.c.toNat ∧
    Flags.unpack (f.pack b) = f) ∧
  ∀ p : Byte, (Flags.unpack p).pack true = p ||| 0x30#8 ∧
    Flags.unpack p =
      { n := p.getLsbD 7, v := p.getLsbD 6, d := p.getLsbD 3, i := p.getLsbD 2, z := p.getLsbD 1, c := p.getLsbD 0 }

/-- Rules R42, R64 to R70 and R72: the operand of an instruction fetched at PC is the byte after the opcode, or the word
of the two bytes after it; the effective addresses of the modes without a zero-page pointer, with the width at which each
sum wraps; and the operand byte lengths. -/
def Obligations.EffectiveAddressesWrapAtTheirWidth : Prop :=
  (∀ (s : State) (i : Instr), fetch s = .legal i →
    let b : Byte := s.read (s.pc + 1#16)
    let w : Addr := s.read16 (s.pc + 1#16)
    i.operand ∈ ([.implied, .accumulator, .immediate b, .zeroPage b, .zeroPageX b, .zeroPageY b, .absolute w,
      .absoluteX w, .absoluteY w, .indirect w, .indexedIndirect b, .indirectIndexed b,
      .relative (if b.toNat < 128 then (b.toNat : Int) else (b.toNat : Int) - 256)] : List Operand)) ∧
  (∀ (s : State) (v z : Byte) (w : Addr),
    (resolve (.immediate v) s).map BitVec.toNat = some ((s.pc.toNat + 1) % 65536) ∧
    (resolve (.zeroPage z) s).map BitVec.toNat = some z.toNat ∧
    (resolve (.zeroPageX z) s).map BitVec.toNat = some ((z.toNat + s.x.toNat) % 256) ∧
    (resolve (.zeroPageY z) s).map BitVec.toNat = some ((z.toNat + s.y.toNat) % 256) ∧
    resolve (.absolute w) s = some w ∧
    (resolve (.absoluteX w) s).map BitVec.toNat = some ((w.toNat + s.x.toNat) % 65536) ∧
    (resolve (.absoluteY w) s).map BitVec.toNat = some ((w.toNat + s.y.toNat) % 65536) ∧
    (resolve (.indirect w) s).map BitVec.toNat =
      some ((s.read w).toNat + 256 * (s.read (BitVec.ofNat 16 (w.toNat + 1))).toNat)) ∧
  ([.immediate, .zeroPage, .zeroPageX, .zeroPageY, .absolute, .absoluteX, .absoluteY, .indirect] : List Mode).map
    Mode.len = [1, 1, 1, 1, 2, 2, 2, 2]

/-- Rules R71, R73 and R74: the zero-page pointer modes and the branch target. That a pointer's second byte stays in the
zero page rests on decision D8 (log entry 14); that an offset counts from the next instruction, on decision D3 (log
entry 9). -/
def Obligations.PointerAndRelativeModesResolve : Prop :=
  ∀ (s : State) (z : Byte) (d : Int),
    (∃ p : Byte, p.toNat = (z.toNat + s.x.toNat) % 256 ∧
      (resolve (.indexedIndirect z) s).map BitVec.toNat =
        some ((s.read (BitVec.ofNat 16 p.toNat)).toNat +
          256 * (s.read (BitVec.ofNat 16 ((p.toNat + 1) % 256))).toNat)) ∧
    (resolve (.indirectIndexed z) s).map BitVec.toNat =
      some (((s.read (BitVec.ofNat 16 z.toNat)).toNat +
        256 * (s.read (BitVec.ofNat 16 ((z.toNat + 1) % 256))).toNat + s.y.toNat) % 65536) ∧
    (offsetInRange d = true →
      (resolve (.relative d) s).map (fun ea => (ea.toNat : Int)) = some (((s.pc.toNat : Int) + 2 + d) % 65536))

/-- Rules R64 and R75: for an instruction fetched at PC, the operand byte is the byte at the effective address, immediate
included. -/
def Obligations.OperandIsTheByteAtTheEffectiveAddress : Prop :=
  ∀ (s : State) (i : Instr) (ea : Addr) (m : Byte), fetch s = .legal i → resolve i.operand s = some ea →
    operandByte i.operand s = some m → m = s.read ea

/-! ## Arithmetic and compare -/

/-- Rule R80: ADC in every form. V is set when A and the operand agree in sign and the result does not; the decimal flag
is no input. That X, Y, SP, memory, D, I and the status are kept rests on the frame rule of decision D16 (log entry 18). -/
def Obligations.AdcAddsTheOperandAndCarryInEveryForm : Prop :=
  ∀ (i : Instr) (s : State), i.mnemonic = .ADC →
    ∃ m : Byte, operandByte i.operand s = some m ∧
      let sum : Nat := s.a.toNat + m.toNat + s.flags.c.toNat
      let r : Byte := BitVec.ofNat 8 sum
      exec i s = .next { s with
        a := r
        flags := { s.flags with
          n := r.msb, z := r == 0#8, c := decide (255 < sum), v := decide (s.a.msb = m.msb ∧ r.msb ≠ s.a.msb) }
        pc := s.pc + BitVec.ofNat 16 i.length }

/-- Rule R86, with any carry in: C says that the unsigned sum exceeds 255, V that the signed sum is out of range, and V is
the stated bit formula. -/
def Obligations.AdcFlagsSayUnsignedAndSignedOverflow : Prop :=
  ∀ (i : Instr) (s : State) (m : Byte), i.mnemonic = .ADC → operandByte i.operand s = some m →
    ∃ t, exec i s = .next t ∧
      (t.flags.c = true ↔ 255 < s.a.toNat + m.toNat + s.flags.c.toNat) ∧
      (t.flags.v = true ↔ (s.a ^^^ t.a) &&& (m ^^^ t.a) &&& 0x80#8 ≠ 0#8) ∧
      (t.flags.v = true ↔
        s.a.toInt + m.toInt + (s.flags.c.toNat : Int) < -128 ∨ 127 < s.a.toInt + m.toInt + (s.flags.c.toNat : Int))

/-- Rule R81: SBC in every form, with carry as "not borrow". V as the signed overflow of the difference rests on decision
D7 (log entry 13). -/
def Obligations.SbcSubtractsWithBorrowInEveryForm : Prop :=
  ∀ (i : Instr) (s : State), i.mnemonic = .SBC →
    ∃ m : Byte, operandByte i.operand s = some m ∧
      let borrow : Int := 1 - (s.flags.c.toNat : Int)
      let diff : Int := (s.a.toNat : Int) - (m.toNat : Int) - borrow
      let signed : Int := s.a.toInt - m.toInt - borrow
      let r : Byte := BitVec.ofInt 8 diff
      exec i s = .next { s with
        a := r
        flags := { s.flags with
          n := r.msb, z := r == 0#8, c := decide (0 ≤ diff), v := decide (signed < -128 ∨ 127 < signed) }
        pc := s.pc + BitVec.ofNat 16 i.length }

/-- Rule R81's equivalent formulation: SBC of a byte is ADC of its complement, in result and all flags. Rests on decision
D7 (log entry 13). -/
def Obligations.SbcIsAdcOfTheComplement : Prop :=
  ∀ (i : Instr) (s : State), i.mnemonic = .SBC →
    ∃ (m : Byte) (t : State), operandByte i.operand s = some m ∧ exec (.adcImm (~~~m)) s = .next t ∧
      exec i s = .next { t with pc := s.pc + BitVec.ofNat 16 i.length }

/-- Rules R82 to R84: the comparisons write N, Z and C only. Which register each compares is the spec's reading of the
mnemonics (GK3; log entry 8). -/
def Obligations.ComparesSetCarryNegativeAndZeroOnly : Prop :=
  ∀ (i : Instr) (s : State) (reg : Byte),
    (i.mnemonic, reg) ∈ ([(.CMP, s.a), (.CPX, s.x), (.CPY, s.y)] : List (Mnemonic × Byte)) →
    ∃ m : Byte, operandByte i.operand s = some m ∧
      exec i s = .next { s with
        flags := { s.flags with n := (reg - m).msb, z := decide (reg = m), c := decide (m.toNat ≤ reg.toNat) }
        pc := s.pc + BitVec.ofNat 16 i.length }

/-- Rules R85 and R165: D and I steer nothing. An instruction that neither writes them nor pushes them does the same
whatever they hold, and leaves them as they were. -/
def Obligations.DecimalAndInterruptFlagsSteerNothing : Prop :=
  ∀ (i : Instr) (s t : State) (d q : Bool),
    i.mnemonic ∉ ([.SED, .CLD, .SEI, .CLI, .PHP, .PLP, .BRK, .RTI] : List Mnemonic) → exec i s = .next t →
    exec i (s.withDI d q) = .next (t.withDI d q) ∧ t.flags.d = s.flags.d ∧ t.flags.i = s.flags.i

/-! ## Shifts, BIT, logic, increments and decrements -/

/-- Rules R90, R92, R94 and R96: the memory forms of the shifts and rotates, by exact arithmetic. After LSR, N is 0. -/
def Obligations.ShiftsOfMemoryByOnePlace : Prop :=
  ∀ (i : Instr) (s : State) (ea : Addr) (r : Byte) (k : Bool), resolve i.operand s = some ea →
    (i.mnemonic, r, k) ∈ ([
      (.ASL, BitVec.ofNat 8 (2 * (s.read ea).toNat), decide (128 ≤ (s.read ea).toNat)),
      (.LSR, BitVec.ofNat 8 ((s.read ea).toNat / 2), decide ((s.read ea).toNat % 2 = 1)),
      (.ROL, BitVec.ofNat 8 (2 * (s.read ea).toNat + s.flags.c.toNat), decide (128 ≤ (s.read ea).toNat)),
      (.ROR, BitVec.ofNat 8 ((s.read ea).toNat / 2 + 128 * s.flags.c.toNat), decide ((s.read ea).toNat % 2 = 1))] :
      List (Mnemonic × Byte × Bool)) →
    (exec i s = .next { s with
      mem := (s.write ea r).mem
      flags := { s.flags with n := r.msb, z := r == 0#8, c := k }
      pc := s.pc + BitVec.ofNat 16 i.length }) ∧
    (i.mnemonic = .LSR → r.msb = false)

/-- Rules R91, R93, R95 and R97: the accumulator forms, which touch no memory. After LSR, N is 0. -/
def Obligations.ShiftsOfTheAccumulatorByOnePlace : Prop :=
  ∀ (i : Instr) (s : State) (r : Byte) (k : Bool),
    (i, r, k) ∈ ([
      (.aslAcc, BitVec.ofNat 8 (2 * s.a.toNat), decide (128 ≤ s.a.toNat)),
      (.lsrAcc, BitVec.ofNat 8 (s.a.toNat / 2), decide (s.a.toNat % 2 = 1)),
      (.rolAcc, BitVec.ofNat 8 (2 * s.a.toNat + s.flags.c.toNat), decide (128 ≤ s.a.toNat)),
      (.rorAcc, BitVec.ofNat 8 (s.a.toNat / 2 + 128 * s.flags.c.toNat), decide (s.a.toNat % 2 = 1))] :
      List (Instr × Byte × Bool)) →
    (exec i s = .next { s with
      a := r
      flags := { s.flags with n := r.msb, z := r == 0#8, c := k }
      pc := s.pc + 1#16 }) ∧
    (i = .lsrAcc → r.msb = false)

/-- Rule R98: BIT copies N and V from the operand, tests the conjunction for Z, and writes nothing else. -/
def Obligations.BitCopiesTwoBitsAndTestsTheRest : Prop :=
  ∀ (i : Instr) (s : State), i.mnemonic = .BIT →
    ∃ m : Byte, operandByte i.operand s = some m ∧
      exec i s = .next { s with
        flags := { s.flags with n := m.getLsbD 7, v := m.getLsbD 6, z := decide (s.a &&& m = 0#8) }
        pc := s.pc + BitVec.ofNat 16 i.length }

/-- Rules R99 to R101: AND, ORA and EOR in every form. The bitwise operations rest on decision D14 (log entry 8). -/
def Obligations.LogicInstructionsWriteAAndNZ : Prop :=
  ∀ (i : Instr) (s : State), i.mnemonic ∈ ([.AND, .ORA, .EOR] : List Mnemonic) →
    ∃ m r : Byte, operandByte i.operand s = some m ∧
      (i.mnemonic, r) ∈ ([(.AND, s.a &&& m), (.ORA, s.a ||| m), (.EOR, s.a ^^^ m)] : List (Mnemonic × Byte)) ∧
      exec i s = .next { s with
        a := r
        flags := { s.flags with n := r.msb, z := r == 0#8 }
        pc := s.pc + BitVec.ofNat 16 i.length }

/-- Rules R102 and R103: INC and DEC of memory wrap at 8 bits, update N and Z, and leave C and V. Which mnemonic does which
is the spec's reading of the names (GK3; log entry 8). -/
def Obligations.IncAndDecStepMemoryByOne : Prop :=
  ∀ (i : Instr) (s : State), i.mnemonic ∈ ([.INC, .DEC] : List Mnemonic) →
    ∃ (ea : Addr) (r : Byte), resolve i.operand s = some ea ∧
      (i.mnemonic, r) ∈ ([(.INC, BitVec.ofNat 8 ((s.read ea).toNat + 1)),
        (.DEC, BitVec.ofNat 8 ((s.read ea).toNat + 255))] : List (Mnemonic × Byte)) ∧
      exec i s = .next { s with
        mem := (s.write ea r).mem
        flags := { s.flags with n := r.msb, z := r == 0#8 }
        pc := s.pc + BitVec.ofNat 16 i.length }

/-- Rules R104 to R107: the steps of X and Y by one, with 8-bit wrap, N and Z. Which mnemonic does which is the spec's
reading of the names (GK3; log entry 8). -/
def Obligations.IndexRegistersStepByOne : Prop :=
  ∀ (s t : State) (i : Instr),
    let nz (v : Byte) : Flags := { s.flags with n := v.msb, z := v == 0#8 }
    (i, t) ∈ ([
      (.inx, { s with x := s.x + 1#8, flags := nz (s.x + 1#8) }),
      (.iny, { s with y := s.y + 1#8, flags := nz (s.y + 1#8) }),
      (.dex, { s with x := s.x - 1#8, flags := nz (s.x - 1#8) }),
      (.dey, { s with y := s.y - 1#8, flags := nz (s.y - 1#8) })] : List (Instr × State)) →
    exec i s = .next { t with pc := s.pc + 1#16 }

/-! ## Control transfer -/

/-- Rules R110 to R118: each branch tests its flag, goes to `pc0 + 2 + d` if the test holds and to `pc0 + 2` if not, and
changes nothing but PC. The base of the offset rests on decision D3 (log entry 9), the conditions on the spec's reading
of the names (GK3; log entry 8). -/
def Obligations.BranchesTestTheirFlagAndMovePcOnly : Prop :=
  ∀ (s : State) (d : Int) (i : Instr) (taken : Bool),
    (i, taken) ∈ ([(.bcc d, !s.flags.c), (.bcs d, s.flags.c), (.beq d, s.flags.z), (.bne d, !s.flags.z),
      (.bmi d, s.flags.n), (.bpl d, !s.flags.n), (.bvc d, !s.flags.v), (.bvs d, s.flags.v)] : List (Instr × Bool)) →
    exec i s = .next { s with pc := if taken then s.pc + 2#16 + BitVec.ofInt 16 d else s.pc + 2#16 }

/-- Rule R119: JMP sets PC to the operand word or to the word stored there, read with full 16-bit carry, and changes
nothing else. -/
def Obligations.JmpSetsPcDirectlyAndIndirectly : Prop :=
  ∀ (s : State) (w : Addr),
    exec (.jmpAbs w) s = .next { s with pc := w } ∧
    ∃ target : Addr, target.toNat = (s.read w).toNat + 256 * (s.read (BitVec.ofNat 16 (w.toNat + 1))).toNat ∧
      exec (.jmpInd w) s = .next { s with pc := target }

/-- Rule R120: JSR pushes the address of the next instruction itself, high byte first, and goes to its target. The two
bytes and the rest of memory are stated through reads as well. -/
def Obligations.JsrPushesTheNextAddressAndJumps : Prop :=
  ∀ (s : State) (w : Addr),
    ∃ t, exec (.jsr w) s = .next t ∧ t = { s with mem := t.mem, sp := s.sp - 2#8, pc := w } ∧
      t.mem = ((s.write (stackAddr s.sp) (hiByte (s.pc + 3#16))).write (stackAddr (s.sp - 1#8))
        (loByte (s.pc + 3#16))).mem ∧
      t.read (stackAddr s.sp) = hiByte (s.pc + 3#16) ∧ t.read (stackAddr (s.sp - 1#8)) = loByte (s.pc + 3#16) ∧
      SameMemoryExcept [stackAddr s.sp, stackAddr (s.sp - 1#8)] s t

/-- Rule R121: RTS pops the low byte and then the high byte of PC, adds nothing, and changes nothing but PC and SP. -/
def Obligations.RtsPopsPc : Prop :=
  ∀ s : State,
    ∃ target : Addr,
      target.toNat = (s.read (stackAddr (s.sp + 1#8))).toNat + 256 * (s.read (stackAddr (s.sp + 2#8))).toNat ∧
      exec .rts s = .next { s with sp := s.sp + 2#8, pc := target }

/-- The JSR and RTS linkage of rules R120 to R122: from any state that a JSR's callee leaves with SP and the two stack
bytes as the JSR left them, RTS resumes at the instruction after the JSR with SP as before it. -/
def Obligations.RtsReturnsAfterItsJsr : Prop :=
  ∀ (s u : State) (w : Addr),
    ∃ t, exec (.jsr w) s = .next t ∧
      (u.sp = t.sp → (∀ b ∈ [stackAddr s.sp, stackAddr (s.sp - 1#8)], u.read b = t.read b) →
        exec .rts u = .next { u with sp := s.sp, pc := s.pc + 3#16 })

/-! ## Stack and system -/

/-- Rules R125 and R126: PHA pushes A, PHP the packed status with bits 5 and 4 set; only SP, PC and the one stack byte
change. -/
def Obligations.PhaAndPhpPushOneByte : Prop :=
  ∀ (s : State) (i : Instr) (v : Byte),
    (i, v) ∈ ([(.pha, s.a), (.php, BitVec.ofNat 8 (128 * s.flags.n.toNat + 64 * s.flags.v.toNat + 32 + 16 +
      8 * s.flags.d.toNat + 4 * s.flags.i.toNat + 2 * s.flags.z.toNat + s.flags.c.toNat))] : List (Instr × Byte)) →
    ∃ t, exec i s = .next t ∧ t = { s with mem := t.mem, sp := s.sp - 1#8, pc := s.pc + 1#16 } ∧
      t.read (0x0100#16 + s.sp.setWidth 16) = v ∧ SameMemoryExcept [0x0100#16 + s.sp.setWidth 16] s t

/-- Rule R127: PLA pops A. That it updates N and Z rests on decision D6 (log entry 12). -/
def Obligations.PlaPopsAWithNZ : Prop :=
  ∀ s : State,
    let v := s.read (0x0100#16 + (s.sp + 1#8).setWidth 16)
    exec .pla s = .next { s with
      a := v
      sp := s.sp + 1#8
      flags := { s.flags with n := v.msb, z := v == 0#8 }
      pc := s.pc + 1#16 }

/-- Rule R128: PLP pops all six flags and discards bits 5 and 4. -/
def Obligations.PlpPopsAllFlags : Prop :=
  ∀ s : State,
    let p := s.read (0x0100#16 + (s.sp + 1#8).setWidth 16)
    exec .plp s = .next { s with
      sp := s.sp + 1#8
      flags := { n := p.getLsbD 7, v := p.getLsbD 6, d := p.getLsbD 3, i := p.getLsbD 2, z := p.getLsbD 1,
                 c := p.getLsbD 0 }
      pc := s.pc + 1#16 }

/-- Rules R129 and R167, the trap entry: the three pushed bytes, SP, PC from the vector, and nothing else. The return
address rests on decision D4 (log entry 10), the unchanged flags on decision D5 (log entry 11). -/
def Obligations.BrkPushesThreeBytesAndVectors : Prop :=
  ∀ s : State,
    ∃ t, exec .brk s = .next t ∧ t = { s with mem := t.mem, sp := s.sp - 3#8, pc := t.pc } ∧
      t.read (stackAddr s.sp) = hiByte (s.pc + 2#16) ∧ t.read (stackAddr (s.sp - 1#8)) = loByte (s.pc + 2#16) ∧
      t.read (stackAddr (s.sp - 2#8)) = s.flags.pack true ∧
      SameMemoryExcept [stackAddr s.sp, stackAddr (s.sp - 1#8), stackAddr (s.sp - 2#8)] s t ∧
      t.pc.toNat = (s.read 0xFFFE#16).toNat + 256 * (s.read 0xFFFF#16).toNat

/-- Rule R130, the trap return: the flags first, then PC, and nothing else but SP. -/
def Obligations.RtiPopsFlagsThenPc : Prop :=
  ∀ s : State,
    ∃ target : Addr,
      target.toNat = (s.read (stackAddr (s.sp + 2#8))).toNat + 256 * (s.read (stackAddr (s.sp + 3#8))).toNat ∧
      let p := s.read (stackAddr (s.sp + 1#8))
      exec .rti s = .next { s with
        sp := s.sp + 3#8
        flags := { n := p.getLsbD 7, v := p.getLsbD 6, d := p.getLsbD 3, i := p.getLsbD 2, z := p.getLsbD 1,
                   c := p.getLsbD 0 }
        pc := target }

/-- Rules R130 and R168: RTI undoes a BRK. From any state that a handler leaves with SP and the three stack bytes as the
BRK left them, RTI gives back SP and all flags and resumes at the BRK's address plus 2. Rests on decisions D4 and D5 (log
entries 10 and 11). -/
def Obligations.RtiUndoesBrk : Prop :=
  ∀ s u : State,
    ∃ t, exec .brk s = .next t ∧
      (u.sp = t.sp →
        (∀ b ∈ [stackAddr s.sp, stackAddr (s.sp - 1#8), stackAddr (s.sp - 2#8)], u.read b = t.read b) →
        exec .rti u = .next { u with sp := s.sp, flags := s.flags, pc := s.pc + 2#16 })

/-! ## Flag instructions, NOP, transfers, loads and stores -/

/-- Rules R135 to R141: each flag instruction writes its one flag. The pairing is the spec's reading of the names (GK3; log
entry 8). -/
def Obligations.FlagInstructionsWriteOneFlag : Prop :=
  ∀ (s : State) (i : Instr) (f : Flags),
    (i, f) ∈ ([(.sec, { s.flags with c := true }), (.clc, { s.flags with c := false }),
      (.sed, { s.flags with d := true }), (.cld, { s.flags with d := false }),
      (.sei, { s.flags with i := true }), (.cli, { s.flags with i := false }),
      (.clv, { s.flags with v := false })] : List (Instr × Flags)) →
    exec i s = .next { s with flags := f, pc := s.pc + 1#16 }

/-- Rule R142: NOP changes nothing, and the tick advances PC by 1. -/
def Obligations.NopAdvancesPcOnly : Prop :=
  ∀ s : State, exec .nop s = .next { s with pc := s.pc + 1#16 }

/-- Rules R145 to R150: the transfers copy a register with the NZ update, TXS without. The directions are the spec's
reading of the names (GK3; log entry 8). -/
def Obligations.TransfersCopyOneRegister : Prop :=
  ∀ (s t : State) (i : Instr),
    let nz (v : Byte) : Flags := { s.flags with n := v.msb, z := v == 0#8 }
    (i, t) ∈ ([
      (.tax, { s with x := s.a, flags := nz s.a }), (.tay, { s with y := s.a, flags := nz s.a }),
      (.txa, { s with a := s.x, flags := nz s.x }), (.tya, { s with a := s.y, flags := nz s.y }),
      (.tsx, { s with x := s.sp, flags := nz s.sp }), (.txs, { s with sp := s.x })] : List (Instr × State)) →
    exec i s = .next { t with pc := s.pc + 1#16 }

/-- Rule R151: LDA in every form. -/
def Obligations.LdaLoadsAWithNZ : Prop :=
  ∀ (i : Instr) (s : State), i.mnemonic = .LDA →
    ∃ m : Byte, operandByte i.operand s = some m ∧
      exec i s = .next { s with
        a := m
        flags := { s.flags with n := m.msb, z := m == 0#8 }
        pc := s.pc + BitVec.ofNat 16 i.length }

/-- Rules R152 and R153: LDX and LDY in every form. The mnemonics rest on decision D14 (log entry 8). -/
def Obligations.LdxAndLdyLoadWithNZ : Prop :=
  ∀ (i : Instr) (s : State), i.mnemonic ∈ ([.LDX, .LDY] : List Mnemonic) →
    ∃ (m : Byte) (t : State), operandByte i.operand s = some m ∧
      (i.mnemonic, t) ∈ ([(.LDX, { s with x := m }), (.LDY, { s with y := m })] : List (Mnemonic × State)) ∧
      exec i s = .next { t with
        flags := { s.flags with n := m.msb, z := m == 0#8 }
        pc := s.pc + BitVec.ofNat 16 i.length }

/-- Rules R154 to R156: the stores write their register at the effective address and change no register and no flag. The
instructions rest on decision D14 (log entry 8). -/
def Obligations.StoresWriteTheirRegister : Prop :=
  ∀ (i : Instr) (s : State) (reg : Byte),
    (i.mnemonic, reg) ∈ ([(.STA, s.a), (.STX, s.x), (.STY, s.y)] : List (Mnemonic × Byte)) →
    ∃ ea : Addr, resolve i.operand s = some ea ∧
      exec i s = .next { s with mem := (s.write ea reg).mem, pc := s.pc + BitVec.ofNat 16 i.length }

/-! ## Frames -/

/-- The frame of the instructions that store at their effective address (rules R22 and R75, and the frame rule of decision
D16, log entry 18): every byte but the one at `resolve`'s address reads as before, registers keep their values, and so do
the flags, but for N, Z and the shifts' C. The stores' rules rest on decision D14 (log entry 8). -/
def Obligations.StoringInstructionsChangeOneByte : Prop :=
  ∀ (i : Instr) (s t : State) (ea : Addr),
    i.mnemonic ∈ ([.STA, .STX, .STY, .INC, .DEC, .ASL, .LSR, .ROL, .ROR] : List Mnemonic) →
    resolve i.operand s = some ea → exec i s = .next t →
    SameMemoryExcept [ea] s t ∧ t.a = s.a ∧ t.x = s.x ∧ t.y = s.y ∧ t.sp = s.sp ∧ t.status = s.status ∧
      t.flags.v = s.flags.v ∧ t.flags.d = s.flags.d ∧ t.flags.i = s.flags.i ∧
      (i.mnemonic ∈ ([.STA, .STX, .STY] : List Mnemonic) → t.flags = s.flags) ∧
      (i.mnemonic ∈ ([.INC, .DEC] : List Mnemonic) → t.flags.c = s.flags.c)

/-- The frame of the stack instructions (rules R29 to R31, and the frame rule of decision D16, log entry 18): the pushes
store at the slots SP passes over and nowhere else, the pulls store nothing, SP moves by the bytes moved, A (but for PLA),
X, Y and the status stay, and so do the flags but for PLA, PLP and RTI (BRK's by decision D5, log entry 11). -/
def Obligations.StackInstructionsChangeTheirSlotsOnly : Prop :=
  ∀ (i : Instr) (s t : State) (slots : List Addr) (delta : Byte),
    (i.mnemonic, slots, delta) ∈ ([
      (.PHA, [stackAddr s.sp], 0xFF#8), (.PHP, [stackAddr s.sp], 0xFF#8),
      (.JSR, [stackAddr s.sp, stackAddr (s.sp - 1#8)], 0xFE#8),
      (.BRK, [stackAddr s.sp, stackAddr (s.sp - 1#8), stackAddr (s.sp - 2#8)], 0xFD#8),
      (.PLA, [], 1#8), (.PLP, [], 1#8), (.RTS, [], 2#8), (.RTI, [], 3#8)] : List (Mnemonic × List Addr × Byte)) →
    exec i s = .next t →
    SameMemoryExcept slots s t ∧ t.sp = s.sp + delta ∧ (i.mnemonic ≠ .PLA → t.a = s.a) ∧ t.x = s.x ∧ t.y = s.y ∧
      t.status = s.status ∧
      (i.mnemonic ∈ ([.PHA, .PHP, .JSR, .BRK, .RTS] : List Mnemonic) → t.flags = s.flags)

/-- Rules R3 to R5, R7 and R14: A, X, Y and SP change only by the instructions that the spec lists as writing them (the
lists are its own inference), and no instruction writes the status. -/
def Obligations.RegistersAreWrittenOnlyByTheirInstructions : Prop :=
  ∀ (i : Instr) (s t : State), exec i s = .next t →
    (t.a ≠ s.a → i.mnemonic ∈ ([.ADC, .SBC, .AND, .ORA, .EOR, .LDA, .PLA, .TXA, .TYA] : List Mnemonic) ∨
      (i.mnemonic ∈ ([.ASL, .LSR, .ROL, .ROR] : List Mnemonic) ∧ i.operand = .accumulator)) ∧
    (t.x ≠ s.x → i.mnemonic ∈ ([.LDX, .TAX, .TSX, .INX, .DEX] : List Mnemonic)) ∧
    (t.y ≠ s.y → i.mnemonic ∈ ([.LDY, .TAY, .INY, .DEY] : List Mnemonic)) ∧
    (t.sp ≠ s.sp →
      i.mnemonic ∈ ([.PHA, .PHP, .PLA, .PLP, .JSR, .RTS, .BRK, .RTI, .TXS] : List Mnemonic)) ∧
    t.status = s.status

/-- The table of rule R8, the spec's own inference: each flag changes only by the instructions listed as writing it. -/
def Obligations.FlagsAreWrittenOnlyByTheirInstructions : Prop :=
  ∀ (i : Instr) (s t : State), exec i s = .next t →
    let nz : List Mnemonic := [.ADC, .SBC, .CMP, .CPX, .CPY, .ASL, .LSR, .ROL, .ROR, .AND, .ORA, .EOR, .INC, .DEC, .INX,
      .INY, .DEX, .DEY, .LDA, .LDX, .LDY, .TAX, .TAY, .TXA, .TYA, .TSX, .PLA, .BIT, .PLP, .RTI]
    (t.flags.n ≠ s.flags.n → i.mnemonic ∈ nz) ∧ (t.flags.z ≠ s.flags.z → i.mnemonic ∈ nz) ∧
    (t.flags.v ≠ s.flags.v → i.mnemonic ∈ ([.ADC, .SBC, .BIT, .CLV, .PLP, .RTI] : List Mnemonic)) ∧
    (t.flags.d ≠ s.flags.d → i.mnemonic ∈ ([.SED, .CLD, .PLP, .RTI] : List Mnemonic)) ∧
    (t.flags.i ≠ s.flags.i → i.mnemonic ∈ ([.SEI, .CLI, .PLP, .RTI] : List Mnemonic)) ∧
    (t.flags.c ≠ s.flags.c → i.mnemonic ∈ ([.ADC, .SBC, .CMP, .CPX, .CPY, .ASL, .LSR, .ROL, .ROR, .SEC, .CLC, .PLP,
      .RTI] : List Mnemonic))

/-! ## The step -/

/-- Rule R60: where the bytes at PC, read with 16-bit wrap, are those of a well-formed instruction, a tick of a running core
is that instruction's meaning in that state, and nothing is added around it. -/
def Obligations.StepRunsTheDecodedInstruction : Prop :=
  ∀ (s : State) (i : Instr), s.status = .running → i.wf = true →
    (s.bytesAt s.pc i.length = encode i ∨ ∃ rest, decode (s.bytesAt s.pc 3) = .ok (i, rest)) → step s = exec i s

/-- Rules R46 and R161: the illegal bytes are these 105; fetched as an opcode, each makes the status Faulted with the byte
and its address and changes nothing else; a byte not among them is fetched as an instruction. Rests on decisions D2 and
D11 (log entries 5 and 7). -/
def Obligations.IllegalOpcodesStopTheCoreAndChangeNothingElse : Prop :=
  let illegal : List Byte := [0x02, 0x03, 0x04, 0x07, 0x0B, 0x0C, 0x0F, 0x12, 0x13, 0x14, 0x17, 0x1A, 0x1B, 0x1C, 0x1F] ++
    [0x22, 0x23, 0x27, 0x2B, 0x2F, 0x32, 0x33, 0x34, 0x37, 0x3A, 0x3B, 0x3C, 0x3F] ++
    [0x42, 0x43, 0x44, 0x47, 0x4B, 0x4F, 0x52, 0x53, 0x54, 0x57, 0x5A, 0x5B, 0x5C, 0x5F] ++
    [0x62, 0x63, 0x64, 0x67, 0x6B, 0x6F, 0x72, 0x73, 0x74, 0x77, 0x7A, 0x7B, 0x7C, 0x7F] ++
    [0x80, 0x82, 0x83, 0x87, 0x89, 0x8B, 0x8F, 0x92, 0x93, 0x97, 0x9B, 0x9C, 0x9E, 0x9F] ++
    [0xA3, 0xA7, 0xAB, 0xAF, 0xB2, 0xB3, 0xB7, 0xBB, 0xBF, 0xC2, 0xC3, 0xC7, 0xCB, 0xCF] ++
    [0xD2, 0xD3, 0xD4, 0xD7, 0xDA, 0xDB, 0xDC, 0xDF, 0xE2, 0xE3, 0xE7, 0xEB, 0xEF] ++
    [0xF2, 0xF3, 0xF4, 0xF7, 0xFA, 0xFB, 0xFC, 0xFF]
  illegal.length = 105 ∧
  ∀ s : State,
    (s.status = .running → s.read s.pc ∈ illegal →
      step s = .next { s with status := .faulted (s.read s.pc) s.pc }) ∧
    (s.read s.pc ∉ illegal → ∃ i, fetch s = .legal i)

/-- Rules R14 and R162: a step always answers a next state; it changes the status only by the illegal-opcode fault, and then
nothing else; ticks never change anything of a Faulted core again; and `load` keeps the status of any core, so it does not
revive a Faulted one, though it does store its bytes. Rests on decision D11 (log entry 5). -/
def Obligations.FaultedIsTheOnlyStopAndIsTerminal : Prop :=
  (∀ s : State, ∃ t, step s = .next t) ∧
  (∀ s t : State, step s = .next t → t.status ≠ s.status →
    ∃ op, s.status = .running ∧ fetch s = .illegal op ∧ t = { s with status := .faulted op s.pc }) ∧
  (∀ (s t : State) (op : Byte) (at_ : Addr), s.status = .faulted op at_ → Reaches s t → t = s) ∧
  ∀ (s : State) (bytes : List Byte) (at_ : Addr), (s.load bytes at_).status = s.status

/-- Rule R163: no executing instruction faults. Every one of the 151 is a total function of the state, and leaves the core
running if it was. -/
def Obligations.NoExecutingInstructionFaults : Prop :=
  ∀ (i : Instr) (s : State), ∃ t, exec i s = .next t ∧ t.status = s.status

/-- Rule R61: an instruction that does not write PC ends at `next`; the ones that write PC are the taken branches, JMP, JSR,
RTS, RTI and BRK, and they end at exactly what they write. -/
def Obligations.NextPcIsSequentialUnlessTheExecutorWritesIt : Prop :=
  ∀ (i : Instr) (s t : State), exec i s = .next t →
    (i.mnemonic ∉ ([.BCC, .BCS, .BEQ, .BNE, .BMI, .BPL, .BVC, .BVS, .JMP, .JSR, .RTS, .RTI, .BRK] : List Mnemonic) →
      t.pc = s.pc + BitVec.ofNat 16 i.length) ∧
    (i.mnemonic ∈ ([.BCC, .BCS, .BEQ, .BNE, .BMI, .BPL, .BVC, .BVS] : List Mnemonic) →
      t.pc = s.pc + BitVec.ofNat 16 i.length ∨ resolve i.operand s = some t.pc) ∧
    (i.mnemonic ∈ ([.JMP, .JSR] : List Mnemonic) → resolve i.operand s = some t.pc) ∧
    (i.mnemonic = .RTS → t.pc = s.pop16.1) ∧
    (i.mnemonic = .RTI → t.pc = s.pop.2.pop16.1) ∧
    (i.mnemonic = .BRK → t.pc = s.read16 0xFFFE#16)

/-! ## Encoding -/

/-- Decoding the words of a well-formed instruction, whatever follows them, gives it back with every operand. -/
def Obligations.DecodeUndoesEncode : Prop :=
  ∀ (i : Instr) (rest : List Byte), i.wf = true → decode (encode i ++ rest) = .ok (i, rest)

/-- What decodes to an instruction is exactly the words of that instruction, which is well formed, and the rest. -/
def Obligations.EncodeUndoesDecode : Prop :=
  ∀ (bytes rest : List Byte) (i : Instr), decode bytes = .ok (i, rest) → i.wf = true ∧ encode i ++ rest = bytes

/-- Rule R45: the 151 opcode bytes are distinct, so an opcode byte selects at most one mnemonic and mode, no mnemonic and
mode have two bytes, every mnemonic has a row, and each row builds an instruction of its own mnemonic and mode. -/
def Obligations.OpcodeBytesAreUnique : Prop :=
  opcodeTable.length = 151 ∧
  opcodeTable.Pairwise (fun r q => r.opcode ≠ q.opcode) ∧
  opcodeTable.Pairwise (fun r q => (r.mnemonic, r.mode) ≠ (q.mnemonic, q.mode)) ∧
  (∀ m : Mnemonic, ∃ r ∈ opcodeTable, r.mnemonic = m) ∧
  ∀ r ∈ opcodeTable, dispatchEntry r.opcode = some r ∧
    ∀ b1 b2 : Byte, (r.form.build b1 b2).mnemonic = r.mnemonic ∧ (r.form.build b1 b2).operand.mode = r.mode

/-- Words written out from the examples of the spec's rules decode to the instructions they stand for (opcode bytes:
decision D2, log entry 7). -/
def Obligations.WrittenOutWordsDecode : Prop :=
  decode [0x69#8, 0x23#8] = .ok (.adcImm 0x23#8, []) ∧
  decode [0x06#8, 0x10#8] = .ok (.aslZp 0x10#8, []) ∧
  decode [0x0A#8] = .ok (.aslAcc, []) ∧
  decode [0xE6#8, 0x23#8] = .ok (.incZp 0x23#8, []) ∧
  decode [0xD0#8, 0xF9#8] = .ok (.bne (-7), []) ∧
  decode [0x6C#8, 0xFF#8, 0x10#8] = .ok (.jmpInd 0x10FF#16, []) ∧
  decode [0x20#8, 0x34#8, 0x12#8] = .ok (.jsr 0x1234#16, []) ∧
  decode [0x00#8, 0xEA#8] = .ok (.brk, [0xEA#8]) ∧
  decode [0xF8#8] = .ok (.sed, []) ∧
  decode [0xAA#8] = .ok (.tax, []) ∧
  decode [0xB1#8, 0x20#8] = .ok (.ldaIndY 0x20#8, []) ∧
  decode [0x96#8, 0x10#8] = .ok (.stxZpY 0x10#8, [])

/-- Rule R41: the length of an instruction is read from the opcode byte alone, and it is 1 plus the length of the mode in
the rule's table. -/
def Obligations.LengthIsReadFromTheOpcode : Prop :=
  (∀ (op : Byte) (xs ys rx ry : List Byte) (i j : Instr), decode (op :: xs) = .ok (i, rx) →
    decode (op :: ys) = .ok (j, ry) → i.length = j.length ∧ xs.length + 1 = i.length + rx.length) ∧
  ∀ i : Instr, i.length = 1 +
    (if i.operand.mode ∈ ([.implied, .accumulator] : List Mode) then 0
    else if i.operand.mode ∈ ([.absolute, .absoluteX, .absoluteY, .indirect] : List Mode) then 2 else 1)

/-! ## Invariant, memory port, running, observation, assembler -/

/-- Every step keeps the canonical form of memory: rising addresses below 65536, and no cell listed at its first value. -/
def Obligations.StepKeepsMemoryCanonical : Prop :=
  ∀ s t : State, Canonical s → step s = .next t → Canonical t

/-- Memory is canonical after reset, and stays so under `load`. -/
def Obligations.ResetAndLoadAreCanonical : Prop :=
  Canonical State.reset ∧ ∀ (s : State) (bytes : List Byte) (at_ : Addr), Canonical s → Canonical (s.load bytes at_)

/-- The two-block view of rule R37 and the one-state view agree: a memory block that serves the transactions of a tick in
the order of rule R36 answers every read with the data the core saw, and holds afterwards the memory that the step
answers. The order and the port rest on decisions D13 and D15 (log entries 15 and 16). -/
def Obligations.MemoryPortServesEveryTick : Prop :=
  ∀ s t : State, step s = .next t → s.mem.serve (transactions s) = some t.mem

/-- Rules R179 and R184: the loop's test comes before every tick, so at the sentinel or a fault no tick is made; a count
below the bound means the loop has ended; more fuel does not change a run that has ended, so `runN` agrees with `run`; and
a run within its bound goes tick by tick; `run` has one end at most. Rests on decisions D11, D12 and D17 (log entries 5 and
20). -/
def Obligations.RunStopsBeforeTheSentinel : Prop :=
  ∀ (stop : Byte) (fuel more : Nat) (s : State),
    (s.read s.pc = stop ∨ s.status ≠ .running → runN stop fuel s = (0, s)) ∧
    (s.status = .running → s.read s.pc ≠ stop →
      runN stop (fuel + 1) s = ((runN stop fuel (tick s)).1 + 1, (runN stop fuel (tick s)).2)) ∧
    (runN stop fuel s).1 ≤ fuel ∧
    ((runN stop fuel s).1 < fuel → RunEnds stop s (runN stop fuel s).2) ∧
    (RunEnds stop s (runN stop fuel s).2 → runN stop (fuel + more) s = runN stop fuel s) ∧
    ∀ t u : State, RunEnds stop s t → RunEnds stop s u → t = u

/-- Rule R180: two cores are equal exactly when their snapshots are; and for canonical memories, exactly when their
registers, flags, status and every byte are. What a snapshot shows rests on decision D18 (log entry
19). -/
def Obligations.SnapshotsTellStatesApart : Prop :=
  (∀ s t : State, getState s = getState t ↔ s = t) ∧
  ∀ s t : State, Canonical s → Canonical t →
    (s = t ↔ s.a = t.a ∧ s.x = t.x ∧ s.y = t.y ∧ s.sp = t.sp ∧ s.pc = t.pc ∧ s.flags = t.flags ∧
      s.status = t.status ∧ SameMemory s t)

/-- Rule R54: assembling an instruction's canonical text and decoding the opcode byte recovers its mnemonic and mode, and
the whole of it with the operand bytes. Which text is canonical is the model's choice (log entry 17). -/
def Obligations.AssemblingCanonicalTextRoundTrips : Prop :=
  ∀ i : Instr, i.wf = true →
    Assembler.assembleLine (Assembler.instrText i) = .ok (encode i) ∧
    ∃ (op : Byte) (operand : List Byte) (r : Row), encode i = op :: operand ∧ dispatchEntry op = some r ∧
      r.mnemonic = i.mnemonic ∧ r.mode = i.operand.mode ∧ decode (op :: operand) = .ok (i, [])
end

