-- ==== Sys2Proof/Laws/Decode.lean ====
section
/-! SUPPORT. Bytes and words, and what the decoder answers for each form. -/

namespace Sys2Proof

/-! ## Bytes and words -/

@[simp] theorem wordOf_toNat (lo hi : Byte) : (wordOf lo hi).toNat = lo.toNat + 256 * hi.toNat := by
  have l := lo.isLt
  unfold wordOf
  rw [BitVec.toNat_append, ← Nat.shiftLeft_add_eq_or_of_lt l, Nat.shiftLeft_eq]
  omega

@[simp] theorem loByte_wordOf (lo hi : Byte) : loByte (wordOf lo hi) = lo := by
  apply BitVec.eq_of_toNat_eq
  have h := hi.isLt
  have l := lo.isLt
  simp [loByte, BitVec.extractLsb'_toNat]
  omega

@[simp] theorem hiByte_wordOf (lo hi : Byte) : hiByte (wordOf lo hi) = hi := by
  apply BitVec.eq_of_toNat_eq
  have h := hi.isLt
  have l := lo.isLt
  simp [hiByte, BitVec.extractLsb'_toNat, Nat.shiftRight_eq_div_pow]
  omega

@[simp] theorem wordOf_loByte_hiByte (w : Addr) : wordOf (loByte w) (hiByte w) = w := by
  apply BitVec.eq_of_toNat_eq
  have h := w.isLt
  simp [loByte, hiByte, BitVec.extractLsb'_toNat, Nat.shiftRight_eq_div_pow]
  omega

/-- The operand byte of an offset in range stands for that offset (rules R42 and R51). -/
theorem offsetOf_offsetByte {d : Int} (h : offsetInRange d = true) : offsetOf (offsetByte d) = d := by
  simp only [offsetInRange, Bool.and_eq_true, decide_eq_true_eq] at h
  simp only [offsetOf, offsetByte, BitVec.toInt_ofInt]
  rw [Int.bmod_eq_of_le] <;> omega

@[simp] theorem offsetByte_offsetOf (b : Byte) : offsetByte (offsetOf b) = b := by simp [offsetOf, offsetByte]

theorem offsetInRange_offsetOf (b : Byte) : offsetInRange (offsetOf b) = true := by
  have h1 : offsetOf b < 128 := by simpa [offsetOf] using BitVec.toInt_lt (x := b)
  have h2 : -128 ≤ offsetOf b := by simpa [offsetOf] using BitVec.le_toInt (x := b)
  simp only [offsetInRange, Bool.and_eq_true, decide_eq_true_eq]
  omega

/-! ## The decoder -/

/-- An opcode byte without a row is refused as illegal (rule R46). -/
theorem decode_illegal {op : Byte} (h : dispatchEntry op = none) (rest : List Byte) :
    decode (op :: rest) = .error (.illegalOpcode op) := by
  simp [decode, h]

/-- A row found for an opcode byte has that opcode byte (rule R43). -/
theorem opcode_of_dispatchEntry {op : Byte} {r : Row} (h : dispatchEntry op = some r) : r.opcode = op := by
  have := List.find?_some h
  simpa using this

/-- A row found for an opcode byte stands in the table. -/
theorem mem_of_dispatchEntry {op : Byte} {r : Row} (h : dispatchEntry op = some r) : r ∈ opcodeTable :=
  List.mem_of_find?_eq_some h

/-- What the encoder makes of the instruction a row builds: the row's opcode byte, and as many operand bytes as the row's
form takes (rules R40 and R43). The encoder and the table are written apart, and this holds row by row. -/
theorem encode_build : ∀ r ∈ opcodeTable, ∀ b1 b2 : Byte,
    encode (r.form.build b1 b2) = r.opcode :: [b1, b2].take r.form.len := by
  simp only [opcodeTable, List.forall_mem_append, and_assoc]
  refine ⟨?_, ?_, ?_, ?_, ?_, ?_, ?_, ?_, ?_, ?_, ?_⟩
  all_goals
    simp only [rowsArithmetic, rowsShift, rowsLogic, rowsIncDec, rowsBranch, rowsJump, rowsStack, rowsFlag,
      rowsTransfer, rowsLoad, rowsStore]
    repeat first
      | exact List.forall_mem_nil _
      | refine List.forall_mem_cons.mpr ⟨fun b1 b2 => by simp [encode, Form.build, Form.len], ?_⟩

end Sys2Proof
end

