-- ==== Sys2Proof/Laws/Memory.lean ====
section
/-! SUPPORT. The laws of memory as a list of cells: a read after a write, and the canonical form that every operation
keeps. The read laws hold of every list; only equality of memories needs the canonical form. -/

namespace Sys2Proof.Machine.Memory

variable {m : Memory} {k j lo : Nat}

/-! ## Reads -/

theorem read_erase_self (m : Memory) (k : Nat) : (m.erase k).read k = Config.memInit k := by
  induction m with
  | nil => rfl
  | cons c rest ih =>
    by_cases h : c.1 = k
    · simpa [Memory.erase, h] using ih
    · simpa [Memory.erase, h, Memory.read] using ih

theorem read_erase_other (m : Memory) (h : j ≠ k) : (m.erase k).read j = m.read j := by
  induction m with
  | nil => rfl
  | cons c rest ih =>
    by_cases hc : c.1 = k
    · have hj : c.1 ≠ j := fun e => h (e ▸ hc)
      simpa [Memory.erase, hc, Memory.read, hc ▸ hj] using ih
    · by_cases hj : c.1 = j
      · subst hj
        simp [Memory.erase, hc, Memory.read]
      · simpa [Memory.erase, hc, Memory.read, hj] using ih

theorem read_insert_other (m : Memory) (h : j ≠ k) (b : Byte) : (m.insert k b).read j = m.read j := by
  induction m with
  | nil => simp [Memory.insert, Memory.read, Ne.symm h]
  | cons c rest ih =>
    by_cases hk : k < c.1
    · simp [Memory.insert, hk, Memory.read, Ne.symm h]
    · by_cases hj : c.1 = j
      · subst hj
        simp [Memory.insert, hk, Memory.read]
      · simpa [Memory.insert, hk, Memory.read, hj] using ih

theorem read_insert_self (b : Byte) (hm : ∀ c ∈ m, c.1 ≠ k) : (m.insert k b).read k = b := by
  induction m with
  | nil => simp [Memory.insert, Memory.read]
  | cons c rest ih =>
    have hc : c.1 ≠ k := hm c (by simp)
    have hrest := ih (fun c' h' => hm c' (by simp [h']))
    by_cases hk : k < c.1
    · simp [Memory.insert, hk, Memory.read]
    · simpa [Memory.insert, hk, Memory.read, hc] using hrest

theorem not_mem_erase (m : Memory) (k : Nat) : ∀ c ∈ m.erase k, c.1 ≠ k := by
  intro c hc
  simpa using (List.mem_filter.mp hc).2

/-- Reading back what was written (rule R22). -/
@[simp] theorem read_write_self (m : Memory) (k : Nat) (b : Byte) : (m.write k b).read k = b := by
  by_cases h : b = Config.memInit k
  · simp [Memory.write, h, read_erase_self]
  · simp [Memory.write, h, read_insert_self b (not_mem_erase m k)]

/-- A write leaves every other address alone (rule R22). -/
theorem read_write_other (m : Memory) (h : j ≠ k) (b : Byte) : (m.write k b).read j = m.read j := by
  by_cases hb : b = Config.memInit k
  · simp [Memory.write, hb, read_erase_other m h]
  · simp [Memory.write, hb, read_insert_other _ h, read_erase_other m h]

/-! ## The canonical form -/

theorem wfFrom_cons {c : Nat × Byte} :
    Memory.wfFrom lo (c :: m) = true ↔
      lo ≤ c.1 ∧ c.1 < Config.memSize ∧ c.2 ≠ Config.memInit c.1 ∧ Memory.wfFrom (c.1 + 1) m = true := by
  simp [Memory.wfFrom, and_assoc]

theorem wfFrom_mono {lo' : Nat} (h : lo' ≤ lo) (hm : Memory.wfFrom lo m = true) : Memory.wfFrom lo' m = true := by
  cases m with
  | nil => rfl
  | cons c rest =>
    rw [wfFrom_cons] at hm ⊢
    exact ⟨by omega, hm.2⟩

theorem wfFrom_erase (k : Nat) (hm : Memory.wfFrom lo m = true) : Memory.wfFrom lo (m.erase k) = true := by
  induction m generalizing lo with
  | nil => rfl
  | cons c rest ih =>
    rw [wfFrom_cons] at hm
    by_cases hc : c.1 = k
    · have hrest : Memory.wfFrom lo (Memory.erase rest k) = true := ih (wfFrom_mono (by omega) hm.2.2.2)
      simpa [Memory.erase, hc] using hrest
    · have hrest : Memory.wfFrom (c.1 + 1) (Memory.erase rest k) = true := ih hm.2.2.2
      have : Memory.wfFrom lo (c :: Memory.erase rest k) = true := wfFrom_cons.mpr ⟨hm.1, hm.2.1, hm.2.2.1, hrest⟩
      simpa [Memory.erase, hc] using this

theorem wfFrom_insert {b : Byte} (hm : Memory.wfFrom lo m = true) (hlo : lo ≤ k) (hk : k < Config.memSize)
    (hb : b ≠ Config.memInit k) (hnot : ∀ c ∈ m, c.1 ≠ k) : Memory.wfFrom lo (m.insert k b) = true := by
  induction m generalizing lo with
  | nil => exact wfFrom_cons.mpr ⟨hlo, hk, hb, rfl⟩
  | cons c rest ih =>
    have hc : c.1 ≠ k := hnot c (by simp)
    rw [wfFrom_cons] at hm
    by_cases hlt : k < c.1
    · rw [Memory.insert, if_pos hlt]
      exact wfFrom_cons.mpr ⟨hlo, hk, hb, wfFrom_cons.mpr ⟨by omega, hm.2⟩⟩
    · rw [Memory.insert, if_neg hlt]
      exact wfFrom_cons.mpr
        ⟨hm.1, hm.2.1, hm.2.2.1, ih hm.2.2.2 (by omega) (fun c' h' => hnot c' (by simp [h']))⟩

/-- A write keeps the canonical form. -/
theorem wf_write (hm : m.wf = true) (hk : k < Config.memSize) (b : Byte) : (m.write k b).wf = true := by
  by_cases hb : b = Config.memInit k
  · simpa [Memory.write, hb, Memory.wf] using wfFrom_erase k hm
  · simpa [Memory.write, hb, Memory.wf] using
      wfFrom_insert (wfFrom_erase k hm) (Nat.zero_le k) hk hb (not_mem_erase m k)

/-- An address below a canonical list reads as it did at first. -/
theorem read_of_lt (hm : Memory.wfFrom lo m = true) (h : k < lo) : m.read k = Config.memInit k := by
  induction m generalizing lo with
  | nil => rfl
  | cons c rest ih =>
    rw [wfFrom_cons] at hm
    have hc : c.1 ≠ k := by omega
    simpa [Memory.read, hc] using ih hm.2.2.2 (by omega)

/-- Canonical memories that read alike are equal lists. -/
theorem ext_of_wfFrom {m' : Memory} (hm : Memory.wfFrom lo m = true) (hm' : Memory.wfFrom lo m' = true)
    (h : ∀ k, k < Config.memSize → m.read k = m'.read k) : m = m' := by
  induction m generalizing lo m' with
  | nil =>
    cases m' with
    | nil => rfl
    | cons c rest =>
      rw [wfFrom_cons] at hm'
      have := h c.1 hm'.2.1
      simp [Memory.read] at this
      exact absurd this.symm hm'.2.2.1
  | cons c rest ih =>
    rw [wfFrom_cons] at hm
    cases m' with
    | nil =>
      have := h c.1 hm.2.1
      simp [Memory.read] at this
      exact absurd this hm.2.2.1
    | cons c' rest' =>
      rw [wfFrom_cons] at hm'
      have hcc : c.1 = c'.1 := by
        rcases Nat.lt_trichotomy c.1 c'.1 with hlt | heq | hgt
        · have := h c.1 hm.2.1
          rw [read_of_lt (m := c' :: rest') (lo := c'.1) (wfFrom_cons.mpr ⟨Nat.le_refl _, hm'.2⟩) hlt] at this
          simp [Memory.read] at this
          exact absurd this hm.2.2.1
        · exact heq
        · have := h c'.1 hm'.2.1
          rw [read_of_lt (m := c :: rest) (lo := c.1) (wfFrom_cons.mpr ⟨Nat.le_refl _, hm.2⟩) hgt] at this
          simp [Memory.read] at this
          exact absurd this.symm hm'.2.2.1
      have hb : c.2 = c'.2 := by
        have := h c.1 hm.2.1
        simpa [Memory.read, hcc] using this
      have hr : rest = rest' := by
        refine ih hm.2.2.2 (hcc ▸ hm'.2.2.2) (fun k hk => ?_)
        by_cases hkc : k < c.1 + 1
        · rw [read_of_lt hm.2.2.2 hkc, read_of_lt (hcc ▸ hm'.2.2.2) hkc]
        · have := h k hk
          have h1 : c.1 ≠ k := by omega
          have h2 : c'.1 ≠ k := by omega
          simpa [Memory.read, h1, h2] using this
      rw [hr, Prod.ext hcc hb]

end Sys2Proof.Machine.Memory
end

