-- ==== Sys2Proof/Laws/State.lean ====
section
/-! SUPPORT. What each update of the state does to each field: one lemma per field per update, so that no later proof
unfolds a record update. -/

namespace Sys2Proof.Machine.State

variable (s : State)

@[simp] theorem setA_a (v : Byte) : (s.setA v).a = v := rfl
@[simp] theorem setA_x (v : Byte) : (s.setA v).x = s.x := rfl
@[simp] theorem setA_y (v : Byte) : (s.setA v).y = s.y := rfl
@[simp] theorem setA_sp (v : Byte) : (s.setA v).sp = s.sp := rfl
@[simp] theorem setA_pc (v : Byte) : (s.setA v).pc = s.pc := rfl
@[simp] theorem setA_flags (v : Byte) : (s.setA v).flags = s.flags := rfl
@[simp] theorem setA_mem (v : Byte) : (s.setA v).mem = s.mem := rfl
@[simp] theorem setA_status (v : Byte) : (s.setA v).status = s.status := rfl

@[simp] theorem setX_a (v : Byte) : (s.setX v).a = s.a := rfl
@[simp] theorem setX_x (v : Byte) : (s.setX v).x = v := rfl
@[simp] theorem setX_y (v : Byte) : (s.setX v).y = s.y := rfl
@[simp] theorem setX_sp (v : Byte) : (s.setX v).sp = s.sp := rfl
@[simp] theorem setX_pc (v : Byte) : (s.setX v).pc = s.pc := rfl
@[simp] theorem setX_flags (v : Byte) : (s.setX v).flags = s.flags := rfl
@[simp] theorem setX_mem (v : Byte) : (s.setX v).mem = s.mem := rfl
@[simp] theorem setX_status (v : Byte) : (s.setX v).status = s.status := rfl

@[simp] theorem setY_a (v : Byte) : (s.setY v).a = s.a := rfl
@[simp] theorem setY_x (v : Byte) : (s.setY v).x = s.x := rfl
@[simp] theorem setY_y (v : Byte) : (s.setY v).y = v := rfl
@[simp] theorem setY_sp (v : Byte) : (s.setY v).sp = s.sp := rfl
@[simp] theorem setY_pc (v : Byte) : (s.setY v).pc = s.pc := rfl
@[simp] theorem setY_flags (v : Byte) : (s.setY v).flags = s.flags := rfl
@[simp] theorem setY_mem (v : Byte) : (s.setY v).mem = s.mem := rfl
@[simp] theorem setY_status (v : Byte) : (s.setY v).status = s.status := rfl

@[simp] theorem setSP_a (v : Byte) : (s.setSP v).a = s.a := rfl
@[simp] theorem setSP_x (v : Byte) : (s.setSP v).x = s.x := rfl
@[simp] theorem setSP_y (v : Byte) : (s.setSP v).y = s.y := rfl
@[simp] theorem setSP_sp (v : Byte) : (s.setSP v).sp = v := rfl
@[simp] theorem setSP_pc (v : Byte) : (s.setSP v).pc = s.pc := rfl
@[simp] theorem setSP_flags (v : Byte) : (s.setSP v).flags = s.flags := rfl
@[simp] theorem setSP_mem (v : Byte) : (s.setSP v).mem = s.mem := rfl
@[simp] theorem setSP_status (v : Byte) : (s.setSP v).status = s.status := rfl

@[simp] theorem setPc_a (t : Addr) : (s.setPc t).a = s.a := rfl
@[simp] theorem setPc_x (t : Addr) : (s.setPc t).x = s.x := rfl
@[simp] theorem setPc_y (t : Addr) : (s.setPc t).y = s.y := rfl
@[simp] theorem setPc_sp (t : Addr) : (s.setPc t).sp = s.sp := rfl
@[simp] theorem setPc_pc (t : Addr) : (s.setPc t).pc = t := rfl
@[simp] theorem setPc_flags (t : Addr) : (s.setPc t).flags = s.flags := rfl
@[simp] theorem setPc_mem (t : Addr) : (s.setPc t).mem = s.mem := rfl
@[simp] theorem setPc_status (t : Addr) : (s.setPc t).status = s.status := rfl

@[simp] theorem setFlags_a (f : Flags) : (s.setFlags f).a = s.a := rfl
@[simp] theorem setFlags_x (f : Flags) : (s.setFlags f).x = s.x := rfl
@[simp] theorem setFlags_y (f : Flags) : (s.setFlags f).y = s.y := rfl
@[simp] theorem setFlags_sp (f : Flags) : (s.setFlags f).sp = s.sp := rfl
@[simp] theorem setFlags_pc (f : Flags) : (s.setFlags f).pc = s.pc := rfl
@[simp] theorem setFlags_flags (f : Flags) : (s.setFlags f).flags = f := rfl
@[simp] theorem setFlags_mem (f : Flags) : (s.setFlags f).mem = s.mem := rfl
@[simp] theorem setFlags_status (f : Flags) : (s.setFlags f).status = s.status := rfl

@[simp] theorem setMem_a (m : Memory) : (s.setMem m).a = s.a := rfl
@[simp] theorem setMem_x (m : Memory) : (s.setMem m).x = s.x := rfl
@[simp] theorem setMem_y (m : Memory) : (s.setMem m).y = s.y := rfl
@[simp] theorem setMem_sp (m : Memory) : (s.setMem m).sp = s.sp := rfl
@[simp] theorem setMem_pc (m : Memory) : (s.setMem m).pc = s.pc := rfl
@[simp] theorem setMem_flags (m : Memory) : (s.setMem m).flags = s.flags := rfl
@[simp] theorem setMem_mem (m : Memory) : (s.setMem m).mem = m := rfl
@[simp] theorem setMem_status (m : Memory) : (s.setMem m).status = s.status := rfl

@[simp] theorem setStatus_a (st : Status) : (s.setStatus st).a = s.a := rfl
@[simp] theorem setStatus_x (st : Status) : (s.setStatus st).x = s.x := rfl
@[simp] theorem setStatus_y (st : Status) : (s.setStatus st).y = s.y := rfl
@[simp] theorem setStatus_sp (st : Status) : (s.setStatus st).sp = s.sp := rfl
@[simp] theorem setStatus_pc (st : Status) : (s.setStatus st).pc = s.pc := rfl
@[simp] theorem setStatus_flags (st : Status) : (s.setStatus st).flags = s.flags := rfl
@[simp] theorem setStatus_mem (st : Status) : (s.setStatus st).mem = s.mem := rfl
@[simp] theorem setStatus_status (st : Status) : (s.setStatus st).status = st := rfl

/-! ## Updates as records, and reads that see through them -/

theorem setA_eq (v : Byte) : s.setA v = { s with a := v } := rfl
theorem setX_eq (v : Byte) : s.setX v = { s with x := v } := rfl
theorem setY_eq (v : Byte) : s.setY v = { s with y := v } := rfl
theorem setSP_eq (v : Byte) : s.setSP v = { s with sp := v } := rfl
theorem setPc_eq (t : Addr) : s.setPc t = { s with pc := t } := rfl
theorem setFlags_eq (f : Flags) : s.setFlags f = { s with flags := f } := rfl
theorem setMem_eq (m : Memory) : s.setMem m = { s with mem := m } := rfl
theorem setStatus_eq (st : Status) : s.setStatus st = { s with status := st } := rfl

@[simp] theorem read_setA (v : Byte) (b : Addr) : (s.setA v).read b = s.read b := rfl
@[simp] theorem read_setX (v : Byte) (b : Addr) : (s.setX v).read b = s.read b := rfl
@[simp] theorem read_setY (v : Byte) (b : Addr) : (s.setY v).read b = s.read b := rfl
@[simp] theorem read_setSP (v : Byte) (b : Addr) : (s.setSP v).read b = s.read b := rfl
@[simp] theorem read_setPc (t : Addr) (b : Addr) : (s.setPc t).read b = s.read b := rfl
@[simp] theorem read_setFlags (f : Flags) (b : Addr) : (s.setFlags f).read b = s.read b := rfl
@[simp] theorem read_setStatus (st : Status) (b : Addr) : (s.setStatus st).read b = s.read b := rfl

end Sys2Proof.Machine.State
end

