-- ==== Sys2Proof/Laws/Ops.lean ====
section
/-! SUPPORT. What each shared operation does: its value, and the fields it leaves alone. -/

namespace Sys2Proof.Machine

variable (s : State)

/-! ## Reading and writing -/

/-- A write sets one cell and no other (rule R22). -/
theorem State.read_write (a b : Addr) (v : Byte) : (s.write a v).read b = if b = a then v else s.read b := by
  unfold State.read State.write
  by_cases h : b = a
  · subst h; simp
  · rw [State.setMem_mem, Memory.read_write_other _ (fun hn => h (BitVec.eq_of_toNat_eq hn)), if_neg h]

@[simp] theorem State.read_write_self (a : Addr) (v : Byte) : (s.write a v).read a = v := by
  simp [State.read_write]

theorem State.read_write_ne {a b : Addr} (h : b ≠ a) (v : Byte) : (s.write a v).read b = s.read b := by
  simp [State.read_write, h]

/-- The value of a 16-bit read (rules R23 and R24). -/
theorem State.read16_toNat (a : Addr) :
    (s.read16 a).toNat = (s.read a).toNat + 256 * (s.read (a + 1#16)).toNat := by
  simp [State.read16]

/-! ## Fields that the operations leave alone -/

@[simp] theorem State.write_a (a : Addr) (v : Byte) : (s.write a v).a = s.a := rfl
@[simp] theorem State.write_x (a : Addr) (v : Byte) : (s.write a v).x = s.x := rfl
@[simp] theorem State.write_y (a : Addr) (v : Byte) : (s.write a v).y = s.y := rfl
@[simp] theorem State.write_sp (a : Addr) (v : Byte) : (s.write a v).sp = s.sp := rfl
@[simp] theorem State.write_pc (a : Addr) (v : Byte) : (s.write a v).pc = s.pc := rfl
@[simp] theorem State.write_flags (a : Addr) (v : Byte) : (s.write a v).flags = s.flags := rfl
@[simp] theorem State.write_status (a : Addr) (v : Byte) : (s.write a v).status = s.status := rfl
@[simp] theorem State.push_a (v : Byte) : (s.push v).a = s.a := rfl
@[simp] theorem State.push_x (v : Byte) : (s.push v).x = s.x := rfl
@[simp] theorem State.push_y (v : Byte) : (s.push v).y = s.y := rfl
@[simp] theorem State.push_pc (v : Byte) : (s.push v).pc = s.pc := rfl
@[simp] theorem State.push_flags (v : Byte) : (s.push v).flags = s.flags := rfl
@[simp] theorem State.push_status (v : Byte) : (s.push v).status = s.status := rfl
@[simp] theorem State.push16_a (w : Addr) : (s.push16 w).a = s.a := rfl
@[simp] theorem State.push16_x (w : Addr) : (s.push16 w).x = s.x := rfl
@[simp] theorem State.push16_y (w : Addr) : (s.push16 w).y = s.y := rfl
@[simp] theorem State.push16_pc (w : Addr) : (s.push16 w).pc = s.pc := rfl
@[simp] theorem State.push16_flags (w : Addr) : (s.push16 w).flags = s.flags := rfl
@[simp] theorem State.push16_status (w : Addr) : (s.push16 w).status = s.status := rfl
@[simp] theorem State.pop_a : (s.pop.2).a = s.a := rfl
@[simp] theorem State.pop_x : (s.pop.2).x = s.x := rfl
@[simp] theorem State.pop_y : (s.pop.2).y = s.y := rfl
@[simp] theorem State.pop_pc : (s.pop.2).pc = s.pc := rfl
@[simp] theorem State.pop_flags : (s.pop.2).flags = s.flags := rfl
@[simp] theorem State.pop_mem : (s.pop.2).mem = s.mem := rfl
@[simp] theorem State.pop_status : (s.pop.2).status = s.status := rfl
@[simp] theorem State.pop16_a : (s.pop16.2).a = s.a := rfl
@[simp] theorem State.pop16_x : (s.pop16.2).x = s.x := rfl
@[simp] theorem State.pop16_y : (s.pop16.2).y = s.y := rfl
@[simp] theorem State.pop16_pc : (s.pop16.2).pc = s.pc := rfl
@[simp] theorem State.pop16_flags : (s.pop16.2).flags = s.flags := rfl
@[simp] theorem State.pop16_mem : (s.pop16.2).mem = s.mem := rfl
@[simp] theorem State.pop16_status : (s.pop16.2).status = s.status := rfl

@[simp] theorem loadA_a (v : Byte) : (loadA v s).a = v := rfl
@[simp] theorem loadA_x (v : Byte) : (loadA v s).x = s.x := rfl
@[simp] theorem loadA_y (v : Byte) : (loadA v s).y = s.y := rfl
@[simp] theorem loadA_sp (v : Byte) : (loadA v s).sp = s.sp := rfl
@[simp] theorem loadA_pc (v : Byte) : (loadA v s).pc = s.pc := rfl
@[simp] theorem loadA_flags (v : Byte) : (loadA v s).flags = s.flags.setNZ v := rfl
@[simp] theorem loadA_mem (v : Byte) : (loadA v s).mem = s.mem := rfl
@[simp] theorem loadA_status (v : Byte) : (loadA v s).status = s.status := rfl

@[simp] theorem loadX_a (v : Byte) : (loadX v s).a = s.a := rfl
@[simp] theorem loadX_x (v : Byte) : (loadX v s).x = v := rfl
@[simp] theorem loadX_y (v : Byte) : (loadX v s).y = s.y := rfl
@[simp] theorem loadX_sp (v : Byte) : (loadX v s).sp = s.sp := rfl
@[simp] theorem loadX_pc (v : Byte) : (loadX v s).pc = s.pc := rfl
@[simp] theorem loadX_flags (v : Byte) : (loadX v s).flags = s.flags.setNZ v := rfl
@[simp] theorem loadX_mem (v : Byte) : (loadX v s).mem = s.mem := rfl
@[simp] theorem loadX_status (v : Byte) : (loadX v s).status = s.status := rfl

@[simp] theorem loadY_a (v : Byte) : (loadY v s).a = s.a := rfl
@[simp] theorem loadY_x (v : Byte) : (loadY v s).x = s.x := rfl
@[simp] theorem loadY_y (v : Byte) : (loadY v s).y = v := rfl
@[simp] theorem loadY_sp (v : Byte) : (loadY v s).sp = s.sp := rfl
@[simp] theorem loadY_pc (v : Byte) : (loadY v s).pc = s.pc := rfl
@[simp] theorem loadY_flags (v : Byte) : (loadY v s).flags = s.flags.setNZ v := rfl
@[simp] theorem loadY_mem (v : Byte) : (loadY v s).mem = s.mem := rfl
@[simp] theorem loadY_status (v : Byte) : (loadY v s).status = s.status := rfl

/-! ## The stack -/

@[simp] theorem State.push_sp (v : Byte) : (s.push v).sp = s.sp - 1#8 := rfl
@[simp] theorem State.pop_sp : s.pop.2.sp = s.sp + 1#8 := rfl
@[simp] theorem State.pop_value : s.pop.1 = s.read (stackAddr (s.sp + 1#8)) := rfl

@[simp] theorem State.push16_sp (w : Addr) : (s.push16 w).sp = s.sp - 2#8 := by
  simp only [State.push16, State.push_sp]; bv_omega

@[simp] theorem State.pop16_sp : s.pop16.2.sp = s.sp + 2#8 := by
  simp only [State.pop16, State.pop_sp]; bv_omega

/-- The stack page is 0x0100 to 0x01FF (rule R7). -/
theorem stackAddr_toNat (p : Byte) : (stackAddr p).toNat = 256 + p.toNat := by
  have := p.isLt
  simp only [stackAddr, Config.stackPage, BitVec.toNat_add, BitVec.toNat_ofNat, BitVec.toNat_setWidth]
  omega

@[simp] theorem stackAddr_inj {p q : Byte} : stackAddr p = stackAddr q ↔ p = q := by
  refine ⟨fun h => BitVec.eq_of_toNat_eq ?_, fun h => h ▸ rfl⟩
  have := congrArg BitVec.toNat h
  simp only [stackAddr_toNat] at this
  omega

/-- The vector bytes are not in the stack page (rule R36). -/
theorem stackAddr_ne_vector (p : Byte) :
    stackAddr p ≠ Config.breakVector ∧ stackAddr p ≠ Config.breakVector + 1#16 := by
  have hp := p.isLt
  constructor <;> intro h <;> have := congrArg BitVec.toNat h <;> rw [stackAddr_toNat] at this <;>
    simp [Config.breakVector] at this <;> omega

/-- Where a push stores, and what it leaves alone (rule R29). -/
theorem State.read_push (v : Byte) (b : Addr) :
    (s.push v).read b = if b = stackAddr s.sp then v else s.read b := by
  simp [State.push, State.read_write]

/-- A push and then a pop give the byte back, and every other part of the pushed state (rule R131). -/
@[simp] theorem State.pop_push (v : Byte) : (s.push v).pop = (v, s.write (stackAddr s.sp) v) := by
  refine Prod.ext ?_ ?_
  · simp [State.read_push]
  · simp [State.pop, State.push, State.setSP_eq, State.write, State.setMem_eq]

/-- The two bytes a word push stores (rule R31). -/
theorem State.read_push16 (w : Addr) (b : Addr) :
    (s.push16 w).read b =
      if b = stackAddr (s.sp - 1#8) then loByte w else if b = stackAddr s.sp then hiByte w else s.read b := by
  simp [State.push16, State.read_push]

/-- The word a pop gives (rule R31). -/
theorem State.pop16_value :
    s.pop16.1 = wordOf (s.read (stackAddr (s.sp + 1#8))) (s.read (stackAddr (s.sp + 2#8))) := by
  have h : s.sp + 1#8 + 1#8 = s.sp + 2#8 := by bv_omega
  simp [State.pop16, State.pop, h]

/-! ## Ends of an instruction -/

/-- What the end of an instruction that does not write PC answers (rule R61). -/
theorem retire_next (len : Nat) : retire len s = .next (s.setPc (s.pc + BitVec.ofNat 16 (1 + len))) := rfl

/-- What the end of an instruction that writes PC answers (rule R61). -/
theorem jumpTo_next (t : Addr) : jumpTo t s = .next (s.setPc t) := rfl

/-- A branch answers a next state that differs in PC alone (rule R110). -/
theorem branchIf_next (cond : Bool) (d : Int) :
    branchIf cond d s = .next (s.setPc (if cond then eaRelative d s else s.nextPc 1)) := by
  cases cond <;> rfl

/-- What entering the trap does (rules R129 and R167): three bytes pushed, SP three down, PC the vector, and no other
field changed. -/
theorem trapEntry_eq (ra : Addr) :
    trapEntry ra s =
      { s with
        mem := ((s.push16 ra).push (s.flags.pack true)).mem
        sp := s.sp - 3#8
        pc := s.read16 Config.breakVector } := by
  have h3 : s.sp - 1#8 - 1#8 - 1#8 = s.sp - 3#8 := by bv_omega
  have hv (p : Byte) := (stackAddr_ne_vector p).1.symm
  have hw (p : Byte) := (stackAddr_ne_vector p).2.symm
  have hr : (((s.push16 ra).push (s.flags.pack true)).read16 Config.breakVector) = s.read16 Config.breakVector := by
    simp [State.read16, State.read_push, State.read_push16, hv, hw]
  simp only [trapEntry, hr]
  simp [State.push16, State.push, State.setSP_eq, State.write, State.setMem_eq, State.setPc_eq, h3]

/-- What returning from the trap does (rules R130 and R168). -/
theorem trapReturn_eq :
    trapReturn s =
      { s with
        flags := Flags.unpack (s.read (stackAddr (s.sp + 1#8)))
        sp := s.sp + 3#8
        pc := wordOf (s.read (stackAddr (s.sp + 2#8))) (s.read (stackAddr (s.sp + 3#8))) } := by
  have h2 : s.sp + 1#8 + 1#8 = s.sp + 2#8 := by bv_omega
  have h3 : s.sp + 2#8 + 1#8 = s.sp + 3#8 := by bv_omega
  simp [trapReturn, State.pop16, State.pop, State.setSP_eq, State.setFlags_eq, State.setPc_eq, State.read, h2, h3]

/-- What the illegal-opcode fault does (rule R161). -/
theorem raiseIllegalOpcode_eq (op : Byte) (at_ : Addr) :
    raiseIllegalOpcode op at_ s = { s with status := .faulted op at_ } := rfl

/-! ## The canonical form of memory -/

theorem State.wf_write (h : s.mem.wf = true) (a : Addr) (v : Byte) : (s.write a v).mem.wf = true :=
  Memory.wf_write h a.isLt v

theorem State.wf_push (h : s.mem.wf = true) (v : Byte) : (s.push v).mem.wf = true := s.wf_write h _ v

theorem State.wf_push16 (h : s.mem.wf = true) (w : Addr) : (s.push16 w).mem.wf = true :=
  State.wf_push _ (s.wf_push h _) _

end Sys2Proof.Machine
end

