-- ==== Sys2Proof/Laws/Meanings.lean ====
section
/-! SUPPORT. What `exec` does with a mnemonic that has several forms, in all its forms at once: which byte it takes, or
which cell it updates, and how it ends. Every other mnemonic's meaning is one equation of `exec`. -/

namespace Sys2Proof.Machine

variable {i : Instr}

/-! ## Instructions that take the byte of their operand -/

theorem exec_ADC (h : i.mnemonic = .ADC) (s : State) :
    ∃ m, operandByte i.operand s = some m ∧ exec i s = retire i.operand.mode.len (addToA m s) := by
  cases i <;> cases h <;> exact ⟨_, rfl, rfl⟩

theorem exec_SBC (h : i.mnemonic = .SBC) (s : State) :
    ∃ m, operandByte i.operand s = some m ∧ exec i s = retire i.operand.mode.len (subFromA m s) := by
  cases i <;> cases h <;> exact ⟨_, rfl, rfl⟩

theorem exec_CMP (h : i.mnemonic = .CMP) (s : State) :
    ∃ m, operandByte i.operand s = some m ∧ exec i s = retire i.operand.mode.len (compareA m s) := by
  cases i <;> cases h <;> exact ⟨_, rfl, rfl⟩

theorem exec_CPX (h : i.mnemonic = .CPX) (s : State) :
    ∃ m, operandByte i.operand s = some m ∧ exec i s = retire i.operand.mode.len (compareX m s) := by
  cases i <;> cases h <;> exact ⟨_, rfl, rfl⟩

theorem exec_CPY (h : i.mnemonic = .CPY) (s : State) :
    ∃ m, operandByte i.operand s = some m ∧ exec i s = retire i.operand.mode.len (compareY m s) := by
  cases i <;> cases h <;> exact ⟨_, rfl, rfl⟩

theorem exec_BIT (h : i.mnemonic = .BIT) (s : State) :
    ∃ m, operandByte i.operand s = some m ∧ exec i s = retire i.operand.mode.len (bitTest m s) := by
  cases i <;> cases h <;> exact ⟨_, rfl, rfl⟩

theorem exec_AND (h : i.mnemonic = .AND) (s : State) :
    ∃ m, operandByte i.operand s = some m ∧ exec i s = retire i.operand.mode.len (andA m s) := by
  cases i <;> cases h <;> exact ⟨_, rfl, rfl⟩

theorem exec_ORA (h : i.mnemonic = .ORA) (s : State) :
    ∃ m, operandByte i.operand s = some m ∧ exec i s = retire i.operand.mode.len (orA m s) := by
  cases i <;> cases h <;> exact ⟨_, rfl, rfl⟩

theorem exec_EOR (h : i.mnemonic = .EOR) (s : State) :
    ∃ m, operandByte i.operand s = some m ∧ exec i s = retire i.operand.mode.len (eorA m s) := by
  cases i <;> cases h <;> exact ⟨_, rfl, rfl⟩

theorem exec_LDA (h : i.mnemonic = .LDA) (s : State) :
    ∃ m, operandByte i.operand s = some m ∧ exec i s = retire i.operand.mode.len (loadA m s) := by
  cases i <;> cases h <;> exact ⟨_, rfl, rfl⟩

theorem exec_LDX (h : i.mnemonic = .LDX) (s : State) :
    ∃ m, operandByte i.operand s = some m ∧ exec i s = retire i.operand.mode.len (loadX m s) := by
  cases i <;> cases h <;> exact ⟨_, rfl, rfl⟩

theorem exec_LDY (h : i.mnemonic = .LDY) (s : State) :
    ∃ m, operandByte i.operand s = some m ∧ exec i s = retire i.operand.mode.len (loadY m s) := by
  cases i <;> cases h <;> exact ⟨_, rfl, rfl⟩

/-! ## Instructions that update A or the byte at their effective address -/

theorem exec_ASL (h : i.mnemonic = .ASL) (s : State) :
    (i.operand = .accumulator ∧ exec i s = retire 0 (shiftA shiftLeft s)) ∨
      ∃ ea, resolve i.operand s = some ea ∧ operandByte i.operand s = some (s.read ea) ∧
        exec i s = retire i.operand.mode.len (shiftAt shiftLeft ea s) := by
  cases i <;> cases h <;> first | exact .inl ⟨rfl, rfl⟩ | exact .inr ⟨_, rfl, rfl, rfl⟩

theorem exec_LSR (h : i.mnemonic = .LSR) (s : State) :
    (i.operand = .accumulator ∧ exec i s = retire 0 (shiftA shiftRight s)) ∨
      ∃ ea, resolve i.operand s = some ea ∧ operandByte i.operand s = some (s.read ea) ∧
        exec i s = retire i.operand.mode.len (shiftAt shiftRight ea s) := by
  cases i <;> cases h <;> first | exact .inl ⟨rfl, rfl⟩ | exact .inr ⟨_, rfl, rfl, rfl⟩

theorem exec_ROL (h : i.mnemonic = .ROL) (s : State) :
    (i.operand = .accumulator ∧ exec i s = retire 0 (shiftA rotateLeft s)) ∨
      ∃ ea, resolve i.operand s = some ea ∧ operandByte i.operand s = some (s.read ea) ∧
        exec i s = retire i.operand.mode.len (shiftAt rotateLeft ea s) := by
  cases i <;> cases h <;> first | exact .inl ⟨rfl, rfl⟩ | exact .inr ⟨_, rfl, rfl, rfl⟩

theorem exec_ROR (h : i.mnemonic = .ROR) (s : State) :
    (i.operand = .accumulator ∧ exec i s = retire 0 (shiftA rotateRight s)) ∨
      ∃ ea, resolve i.operand s = some ea ∧ operandByte i.operand s = some (s.read ea) ∧
        exec i s = retire i.operand.mode.len (shiftAt rotateRight ea s) := by
  cases i <;> cases h <;> first | exact .inl ⟨rfl, rfl⟩ | exact .inr ⟨_, rfl, rfl, rfl⟩

theorem exec_INC (h : i.mnemonic = .INC) (s : State) :
    ∃ ea, resolve i.operand s = some ea ∧ operandByte i.operand s = some (s.read ea) ∧
      exec i s = retire i.operand.mode.len (updateAt increment ea s) := by
  cases i <;> cases h <;> exact ⟨_, rfl, rfl, rfl⟩

theorem exec_DEC (h : i.mnemonic = .DEC) (s : State) :
    ∃ ea, resolve i.operand s = some ea ∧ operandByte i.operand s = some (s.read ea) ∧
      exec i s = retire i.operand.mode.len (updateAt decrement ea s) := by
  cases i <;> cases h <;> exact ⟨_, rfl, rfl, rfl⟩

/-! ## Stores -/

theorem exec_STA (h : i.mnemonic = .STA) (s : State) :
    ∃ ea, resolve i.operand s = some ea ∧ exec i s = retire i.operand.mode.len (s.write ea s.a) := by
  cases i <;> cases h <;> exact ⟨_, rfl, rfl⟩

theorem exec_STX (h : i.mnemonic = .STX) (s : State) :
    ∃ ea, resolve i.operand s = some ea ∧ exec i s = retire i.operand.mode.len (s.write ea s.x) := by
  cases i <;> cases h <;> exact ⟨_, rfl, rfl⟩

theorem exec_STY (h : i.mnemonic = .STY) (s : State) :
    ∃ ea, resolve i.operand s = some ea ∧ exec i s = retire i.operand.mode.len (s.write ea s.y) := by
  cases i <;> cases h <;> exact ⟨_, rfl, rfl⟩

end Sys2Proof.Machine
end

