-- ==== Sys2Proof/Laws/Effects.lean ====
section
/-! SUPPORT. Everything an instruction can do, said once: the next state of each mnemonic, whatever its form. Frames,
invariants and rules about the whole machine are case analyses over `Effect`, with no unfolding of `exec`. -/

namespace Sys2Proof.Machine

/-- `Effect s o m t`: the instruction of mnemonic `m` with operand `o` takes the state `s` to `t`. -/
inductive Effect (s : State) (o : Operand) : Mnemonic → State → Prop where
  | ADC (m : Byte) (h : operandByte o s = some m) : Effect s o .ADC ((addToA m s).setPc (s.pc + BitVec.ofNat 16 (1 + o.mode.len)))
  | SBC (m : Byte) (h : operandByte o s = some m) : Effect s o .SBC ((subFromA m s).setPc (s.pc + BitVec.ofNat 16 (1 + o.mode.len)))
  | CMP (m : Byte) (h : operandByte o s = some m) : Effect s o .CMP ((compareA m s).setPc (s.pc + BitVec.ofNat 16 (1 + o.mode.len)))
  | CPX (m : Byte) (h : operandByte o s = some m) : Effect s o .CPX ((compareX m s).setPc (s.pc + BitVec.ofNat 16 (1 + o.mode.len)))
  | CPY (m : Byte) (h : operandByte o s = some m) : Effect s o .CPY ((compareY m s).setPc (s.pc + BitVec.ofNat 16 (1 + o.mode.len)))
  | BIT (m : Byte) (h : operandByte o s = some m) : Effect s o .BIT ((bitTest m s).setPc (s.pc + BitVec.ofNat 16 (1 + o.mode.len)))
  | AND (m : Byte) (h : operandByte o s = some m) : Effect s o .AND ((andA m s).setPc (s.pc + BitVec.ofNat 16 (1 + o.mode.len)))
  | ORA (m : Byte) (h : operandByte o s = some m) : Effect s o .ORA ((orA m s).setPc (s.pc + BitVec.ofNat 16 (1 + o.mode.len)))
  | EOR (m : Byte) (h : operandByte o s = some m) : Effect s o .EOR ((eorA m s).setPc (s.pc + BitVec.ofNat 16 (1 + o.mode.len)))
  | LDA (m : Byte) (h : operandByte o s = some m) : Effect s o .LDA ((loadA m s).setPc (s.pc + BitVec.ofNat 16 (1 + o.mode.len)))
  | LDX (m : Byte) (h : operandByte o s = some m) : Effect s o .LDX ((loadX m s).setPc (s.pc + BitVec.ofNat 16 (1 + o.mode.len)))
  | LDY (m : Byte) (h : operandByte o s = some m) : Effect s o .LDY ((loadY m s).setPc (s.pc + BitVec.ofNat 16 (1 + o.mode.len)))
  | ASL_A (h : o = .accumulator) : Effect s o .ASL ((shiftA shiftLeft s).setPc (s.pc + 1#16))
  | ASL (ea : Addr) (h : resolve o s = some ea) : Effect s o .ASL ((shiftAt shiftLeft ea s).setPc (s.pc + BitVec.ofNat 16 (1 + o.mode.len)))
  | LSR_A (h : o = .accumulator) : Effect s o .LSR ((shiftA shiftRight s).setPc (s.pc + 1#16))
  | LSR (ea : Addr) (h : resolve o s = some ea) : Effect s o .LSR ((shiftAt shiftRight ea s).setPc (s.pc + BitVec.ofNat 16 (1 + o.mode.len)))
  | ROL_A (h : o = .accumulator) : Effect s o .ROL ((shiftA rotateLeft s).setPc (s.pc + 1#16))
  | ROL (ea : Addr) (h : resolve o s = some ea) : Effect s o .ROL ((shiftAt rotateLeft ea s).setPc (s.pc + BitVec.ofNat 16 (1 + o.mode.len)))
  | ROR_A (h : o = .accumulator) : Effect s o .ROR ((shiftA rotateRight s).setPc (s.pc + 1#16))
  | ROR (ea : Addr) (h : resolve o s = some ea) : Effect s o .ROR ((shiftAt rotateRight ea s).setPc (s.pc + BitVec.ofNat 16 (1 + o.mode.len)))
  | INC (ea : Addr) (h : resolve o s = some ea) : Effect s o .INC ((updateAt increment ea s).setPc (s.pc + BitVec.ofNat 16 (1 + o.mode.len)))
  | DEC (ea : Addr) (h : resolve o s = some ea) : Effect s o .DEC ((updateAt decrement ea s).setPc (s.pc + BitVec.ofNat 16 (1 + o.mode.len)))
  | STA (ea : Addr) (h : resolve o s = some ea) : Effect s o .STA ((s.write ea s.a).setPc (s.pc + BitVec.ofNat 16 (1 + o.mode.len)))
  | STX (ea : Addr) (h : resolve o s = some ea) : Effect s o .STX ((s.write ea s.x).setPc (s.pc + BitVec.ofNat 16 (1 + o.mode.len)))
  | STY (ea : Addr) (h : resolve o s = some ea) : Effect s o .STY ((s.write ea s.y).setPc (s.pc + BitVec.ofNat 16 (1 + o.mode.len)))
  | BCC (d : Int) (h : o = .relative d) : Effect s o .BCC (s.setPc (if !s.flags.c then eaRelative d s else s.nextPc 1))
  | BCS (d : Int) (h : o = .relative d) : Effect s o .BCS (s.setPc (if s.flags.c then eaRelative d s else s.nextPc 1))
  | BEQ (d : Int) (h : o = .relative d) : Effect s o .BEQ (s.setPc (if s.flags.z then eaRelative d s else s.nextPc 1))
  | BNE (d : Int) (h : o = .relative d) : Effect s o .BNE (s.setPc (if !s.flags.z then eaRelative d s else s.nextPc 1))
  | BMI (d : Int) (h : o = .relative d) : Effect s o .BMI (s.setPc (if s.flags.n then eaRelative d s else s.nextPc 1))
  | BPL (d : Int) (h : o = .relative d) : Effect s o .BPL (s.setPc (if !s.flags.n then eaRelative d s else s.nextPc 1))
  | BVC (d : Int) (h : o = .relative d) : Effect s o .BVC (s.setPc (if !s.flags.v then eaRelative d s else s.nextPc 1))
  | BVS (d : Int) (h : o = .relative d) : Effect s o .BVS (s.setPc (if s.flags.v then eaRelative d s else s.nextPc 1))
  | JMP (ea : Addr) (h : resolve o s = some ea) : Effect s o .JMP (s.setPc ea)
  | JSR (ea : Addr) (h : resolve o s = some ea) : Effect s o .JSR ((s.push16 (s.nextPc 2)).setPc ea)
  | RTS (h : o = .implied) : Effect s o .RTS (s.pop16.2.setPc s.pop16.1)
  | INX (h : o = .implied) : Effect s o .INX ((loadX (increment s.x) s).setPc (s.pc + 1#16))
  | INY (h : o = .implied) : Effect s o .INY ((loadY (increment s.y) s).setPc (s.pc + 1#16))
  | DEX (h : o = .implied) : Effect s o .DEX ((loadX (decrement s.x) s).setPc (s.pc + 1#16))
  | DEY (h : o = .implied) : Effect s o .DEY ((loadY (decrement s.y) s).setPc (s.pc + 1#16))
  | PHA (h : o = .implied) : Effect s o .PHA ((s.push s.a).setPc (s.pc + 1#16))
  | PHP (h : o = .implied) : Effect s o .PHP ((s.push (s.flags.pack true)).setPc (s.pc + 1#16))
  | PLA (h : o = .implied) : Effect s o .PLA ((loadA s.pop.1 s.pop.2).setPc (s.pc + 1#16))
  | PLP (h : o = .implied) : Effect s o .PLP ((s.pop.2.setFlags (Flags.unpack s.pop.1)).setPc (s.pc + 1#16))
  | SEC (h : o = .implied) : Effect s o .SEC ((s.setFlags { s.flags with c := true }).setPc (s.pc + 1#16))
  | CLC (h : o = .implied) : Effect s o .CLC ((s.setFlags { s.flags with c := false }).setPc (s.pc + 1#16))
  | SED (h : o = .implied) : Effect s o .SED ((s.setFlags { s.flags with d := true }).setPc (s.pc + 1#16))
  | CLD (h : o = .implied) : Effect s o .CLD ((s.setFlags { s.flags with d := false }).setPc (s.pc + 1#16))
  | SEI (h : o = .implied) : Effect s o .SEI ((s.setFlags { s.flags with i := true }).setPc (s.pc + 1#16))
  | CLI (h : o = .implied) : Effect s o .CLI ((s.setFlags { s.flags with i := false }).setPc (s.pc + 1#16))
  | CLV (h : o = .implied) : Effect s o .CLV ((s.setFlags { s.flags with v := false }).setPc (s.pc + 1#16))
  | NOP (h : o = .implied) : Effect s o .NOP ((s).setPc (s.pc + 1#16))
  | TAX (h : o = .implied) : Effect s o .TAX ((loadX s.a s).setPc (s.pc + 1#16))
  | TAY (h : o = .implied) : Effect s o .TAY ((loadY s.a s).setPc (s.pc + 1#16))
  | TXA (h : o = .implied) : Effect s o .TXA ((loadA s.x s).setPc (s.pc + 1#16))
  | TYA (h : o = .implied) : Effect s o .TYA ((loadA s.y s).setPc (s.pc + 1#16))
  | TSX (h : o = .implied) : Effect s o .TSX ((loadX s.sp s).setPc (s.pc + 1#16))
  | TXS (h : o = .implied) : Effect s o .TXS ((s.setSP s.x).setPc (s.pc + 1#16))
  | BRK (h : o = .implied) : Effect s o .BRK (trapEntry (s.pc + 2#16) s)
  | RTI (h : o = .implied) : Effect s o .RTI (trapReturn s)

/-- Every instruction answers a next state, and it is the one its mnemonic's effect gives. -/
theorem exec_effect (i : Instr) (s : State) : ∃ t, exec i s = .next t ∧ Effect s i.operand i.mnemonic t := by
  cases i with
  | adcImm v => exact ⟨_, rfl, .ADC _ rfl⟩
  | adcZp z => exact ⟨_, rfl, .ADC _ rfl⟩
  | adcZpX z => exact ⟨_, rfl, .ADC _ rfl⟩
  | adcAbs w => exact ⟨_, rfl, .ADC _ rfl⟩
  | adcAbsX w => exact ⟨_, rfl, .ADC _ rfl⟩
  | adcAbsY w => exact ⟨_, rfl, .ADC _ rfl⟩
  | adcIndX z => exact ⟨_, rfl, .ADC _ rfl⟩
  | adcIndY z => exact ⟨_, rfl, .ADC _ rfl⟩
  | sbcImm v => exact ⟨_, rfl, .SBC _ rfl⟩
  | sbcZp z => exact ⟨_, rfl, .SBC _ rfl⟩
  | sbcZpX z => exact ⟨_, rfl, .SBC _ rfl⟩
  | sbcAbs w => exact ⟨_, rfl, .SBC _ rfl⟩
  | sbcAbsX w => exact ⟨_, rfl, .SBC _ rfl⟩
  | sbcAbsY w => exact ⟨_, rfl, .SBC _ rfl⟩
  | sbcIndX z => exact ⟨_, rfl, .SBC _ rfl⟩
  | sbcIndY z => exact ⟨_, rfl, .SBC _ rfl⟩
  | cmpImm v => exact ⟨_, rfl, .CMP _ rfl⟩
  | cmpZp z => exact ⟨_, rfl, .CMP _ rfl⟩
  | cmpZpX z => exact ⟨_, rfl, .CMP _ rfl⟩
  | cmpAbs w => exact ⟨_, rfl, .CMP _ rfl⟩
  | cmpAbsX w => exact ⟨_, rfl, .CMP _ rfl⟩
  | cmpAbsY w => exact ⟨_, rfl, .CMP _ rfl⟩
  | cmpIndX z => exact ⟨_, rfl, .CMP _ rfl⟩
  | cmpIndY z => exact ⟨_, rfl, .CMP _ rfl⟩
  | cpxImm v => exact ⟨_, rfl, .CPX _ rfl⟩
  | cpxZp z => exact ⟨_, rfl, .CPX _ rfl⟩
  | cpxAbs w => exact ⟨_, rfl, .CPX _ rfl⟩
  | cpyImm v => exact ⟨_, rfl, .CPY _ rfl⟩
  | cpyZp z => exact ⟨_, rfl, .CPY _ rfl⟩
  | cpyAbs w => exact ⟨_, rfl, .CPY _ rfl⟩
  | aslAcc => exact ⟨_, rfl, .ASL_A rfl⟩
  | aslZp z => exact ⟨_, rfl, .ASL _ rfl⟩
  | aslZpX z => exact ⟨_, rfl, .ASL _ rfl⟩
  | aslAbs w => exact ⟨_, rfl, .ASL _ rfl⟩
  | aslAbsX w => exact ⟨_, rfl, .ASL _ rfl⟩
  | lsrAcc => exact ⟨_, rfl, .LSR_A rfl⟩
  | lsrZp z => exact ⟨_, rfl, .LSR _ rfl⟩
  | lsrZpX z => exact ⟨_, rfl, .LSR _ rfl⟩
  | lsrAbs w => exact ⟨_, rfl, .LSR _ rfl⟩
  | lsrAbsX w => exact ⟨_, rfl, .LSR _ rfl⟩
  | rolAcc => exact ⟨_, rfl, .ROL_A rfl⟩
  | rolZp z => exact ⟨_, rfl, .ROL _ rfl⟩
  | rolZpX z => exact ⟨_, rfl, .ROL _ rfl⟩
  | rolAbs w => exact ⟨_, rfl, .ROL _ rfl⟩
  | rolAbsX w => exact ⟨_, rfl, .ROL _ rfl⟩
  | rorAcc => exact ⟨_, rfl, .ROR_A rfl⟩
  | rorZp z => exact ⟨_, rfl, .ROR _ rfl⟩
  | rorZpX z => exact ⟨_, rfl, .ROR _ rfl⟩
  | rorAbs w => exact ⟨_, rfl, .ROR _ rfl⟩
  | rorAbsX w => exact ⟨_, rfl, .ROR _ rfl⟩
  | bitZp z => exact ⟨_, rfl, .BIT _ rfl⟩
  | bitAbs w => exact ⟨_, rfl, .BIT _ rfl⟩
  | andImm v => exact ⟨_, rfl, .AND _ rfl⟩
  | andZp z => exact ⟨_, rfl, .AND _ rfl⟩
  | andZpX z => exact ⟨_, rfl, .AND _ rfl⟩
  | andAbs w => exact ⟨_, rfl, .AND _ rfl⟩
  | andAbsX w => exact ⟨_, rfl, .AND _ rfl⟩
  | andAbsY w => exact ⟨_, rfl, .AND _ rfl⟩
  | andIndX z => exact ⟨_, rfl, .AND _ rfl⟩
  | andIndY z => exact ⟨_, rfl, .AND _ rfl⟩
  | oraImm v => exact ⟨_, rfl, .ORA _ rfl⟩
  | oraZp z => exact ⟨_, rfl, .ORA _ rfl⟩
  | oraZpX z => exact ⟨_, rfl, .ORA _ rfl⟩
  | oraAbs w => exact ⟨_, rfl, .ORA _ rfl⟩
  | oraAbsX w => exact ⟨_, rfl, .ORA _ rfl⟩
  | oraAbsY w => exact ⟨_, rfl, .ORA _ rfl⟩
  | oraIndX z => exact ⟨_, rfl, .ORA _ rfl⟩
  | oraIndY z => exact ⟨_, rfl, .ORA _ rfl⟩
  | eorImm v => exact ⟨_, rfl, .EOR _ rfl⟩
  | eorZp z => exact ⟨_, rfl, .EOR _ rfl⟩
  | eorZpX z => exact ⟨_, rfl, .EOR _ rfl⟩
  | eorAbs w => exact ⟨_, rfl, .EOR _ rfl⟩
  | eorAbsX w => exact ⟨_, rfl, .EOR _ rfl⟩
  | eorAbsY w => exact ⟨_, rfl, .EOR _ rfl⟩
  | eorIndX z => exact ⟨_, rfl, .EOR _ rfl⟩
  | eorIndY z => exact ⟨_, rfl, .EOR _ rfl⟩
  | incZp z => exact ⟨_, rfl, .INC _ rfl⟩
  | incZpX z => exact ⟨_, rfl, .INC _ rfl⟩
  | incAbs w => exact ⟨_, rfl, .INC _ rfl⟩
  | incAbsX w => exact ⟨_, rfl, .INC _ rfl⟩
  | decZp z => exact ⟨_, rfl, .DEC _ rfl⟩
  | decZpX z => exact ⟨_, rfl, .DEC _ rfl⟩
  | decAbs w => exact ⟨_, rfl, .DEC _ rfl⟩
  | decAbsX w => exact ⟨_, rfl, .DEC _ rfl⟩
  | inx => exact ⟨_, rfl, .INX rfl⟩
  | iny => exact ⟨_, rfl, .INY rfl⟩
  | dex => exact ⟨_, rfl, .DEX rfl⟩
  | dey => exact ⟨_, rfl, .DEY rfl⟩
  | bcc d => exact ⟨_, branchIf_next s _ d, .BCC d rfl⟩
  | bcs d => exact ⟨_, branchIf_next s _ d, .BCS d rfl⟩
  | beq d => exact ⟨_, branchIf_next s _ d, .BEQ d rfl⟩
  | bne d => exact ⟨_, branchIf_next s _ d, .BNE d rfl⟩
  | bmi d => exact ⟨_, branchIf_next s _ d, .BMI d rfl⟩
  | bpl d => exact ⟨_, branchIf_next s _ d, .BPL d rfl⟩
  | bvc d => exact ⟨_, branchIf_next s _ d, .BVC d rfl⟩
  | bvs d => exact ⟨_, branchIf_next s _ d, .BVS d rfl⟩
  | jmpAbs w => exact ⟨_, rfl, .JMP _ rfl⟩
  | jmpInd w => exact ⟨_, rfl, .JMP _ rfl⟩
  | jsr w => exact ⟨_, rfl, .JSR _ rfl⟩
  | rts => exact ⟨_, rfl, .RTS rfl⟩
  | pha => exact ⟨_, rfl, .PHA rfl⟩
  | php => exact ⟨_, rfl, .PHP rfl⟩
  | pla => exact ⟨_, rfl, .PLA rfl⟩
  | plp => exact ⟨_, rfl, .PLP rfl⟩
  | brk => exact ⟨_, rfl, .BRK rfl⟩
  | rti => exact ⟨_, rfl, .RTI rfl⟩
  | sec => exact ⟨_, rfl, .SEC rfl⟩
  | clc => exact ⟨_, rfl, .CLC rfl⟩
  | sed => exact ⟨_, rfl, .SED rfl⟩
  | cld => exact ⟨_, rfl, .CLD rfl⟩
  | sei => exact ⟨_, rfl, .SEI rfl⟩
  | cli => exact ⟨_, rfl, .CLI rfl⟩
  | clv => exact ⟨_, rfl, .CLV rfl⟩
  | nop => exact ⟨_, rfl, .NOP rfl⟩
  | tax => exact ⟨_, rfl, .TAX rfl⟩
  | tay => exact ⟨_, rfl, .TAY rfl⟩
  | txa => exact ⟨_, rfl, .TXA rfl⟩
  | tya => exact ⟨_, rfl, .TYA rfl⟩
  | tsx => exact ⟨_, rfl, .TSX rfl⟩
  | txs => exact ⟨_, rfl, .TXS rfl⟩
  | ldaImm v => exact ⟨_, rfl, .LDA _ rfl⟩
  | ldaZp z => exact ⟨_, rfl, .LDA _ rfl⟩
  | ldaZpX z => exact ⟨_, rfl, .LDA _ rfl⟩
  | ldaAbs w => exact ⟨_, rfl, .LDA _ rfl⟩
  | ldaAbsX w => exact ⟨_, rfl, .LDA _ rfl⟩
  | ldaAbsY w => exact ⟨_, rfl, .LDA _ rfl⟩
  | ldaIndX z => exact ⟨_, rfl, .LDA _ rfl⟩
  | ldaIndY z => exact ⟨_, rfl, .LDA _ rfl⟩
  | ldxImm v => exact ⟨_, rfl, .LDX _ rfl⟩
  | ldxZp z => exact ⟨_, rfl, .LDX _ rfl⟩
  | ldxZpY z => exact ⟨_, rfl, .LDX _ rfl⟩
  | ldxAbs w => exact ⟨_, rfl, .LDX _ rfl⟩
  | ldxAbsY w => exact ⟨_, rfl, .LDX _ rfl⟩
  | ldyImm v => exact ⟨_, rfl, .LDY _ rfl⟩
  | ldyZp z => exact ⟨_, rfl, .LDY _ rfl⟩
  | ldyZpX z => exact ⟨_, rfl, .LDY _ rfl⟩
  | ldyAbs w => exact ⟨_, rfl, .LDY _ rfl⟩
  | ldyAbsX w => exact ⟨_, rfl, .LDY _ rfl⟩
  | staZp z => exact ⟨_, rfl, .STA _ rfl⟩
  | staZpX z => exact ⟨_, rfl, .STA _ rfl⟩
  | staAbs w => exact ⟨_, rfl, .STA _ rfl⟩
  | staAbsX w => exact ⟨_, rfl, .STA _ rfl⟩
  | staAbsY w => exact ⟨_, rfl, .STA _ rfl⟩
  | staIndX z => exact ⟨_, rfl, .STA _ rfl⟩
  | staIndY z => exact ⟨_, rfl, .STA _ rfl⟩
  | stxZp z => exact ⟨_, rfl, .STX _ rfl⟩
  | stxZpY z => exact ⟨_, rfl, .STX _ rfl⟩
  | stxAbs w => exact ⟨_, rfl, .STX _ rfl⟩
  | styZp z => exact ⟨_, rfl, .STY _ rfl⟩
  | styZpX z => exact ⟨_, rfl, .STY _ rfl⟩
  | styAbs w => exact ⟨_, rfl, .STY _ rfl⟩

/-- The effect behind an answer of `exec`. -/
theorem effect_of_exec {i : Instr} {s t : State} (h : exec i s = .next t) : Effect s i.operand i.mnemonic t := by
  obtain ⟨u, hu, he⟩ := exec_effect i s
  rw [h] at hu
  cases hu
  exact he

end Sys2Proof.Machine
end

