-- ==== Sys2Proof/Laws/Flags.lean ====
section
/-! SUPPORT. What the flag computations say, as facts about bits and numbers. -/

namespace Sys2Proof.Machine

/-- Testing bit 7 with a mask is reading the top bit. -/
theorem mask7_ne_zero (v : Byte) : ((v &&& 0x80#8) != 0#8) = v.msb := by
  revert v
  decide

/-- ADC's overflow test: the operands agree in sign and the result does not (rule R80). -/
theorem overflow_of_sum (a m r : Byte) :
    (((a ^^^ r) &&& (m ^^^ r) &&& 0x80#8) != 0#8) = decide (a.msb = m.msb ∧ r.msb ≠ a.msb) := by
  rw [mask7_ne_zero, BitVec.msb_and, BitVec.msb_xor, BitVec.msb_xor]
  cases a.msb <;> cases m.msb <;> cases r.msb <;> rfl

/-- SBC's overflow test: the operands differ in sign and the result differs from A (rule R81). -/
theorem overflow_of_difference (a m r : Byte) :
    (((a ^^^ m) &&& (a ^^^ r) &&& 0x80#8) != 0#8) = decide (a.msb ≠ m.msb ∧ r.msb ≠ a.msb) := by
  rw [mask7_ne_zero, BitVec.msb_and, BitVec.msb_xor, BitVec.msb_xor]
  cases a.msb <;> cases m.msb <;> cases r.msb <;> rfl

/-- The byte of a difference is the difference of bytes (rule R82). -/
theorem ofInt_sub (a m : Byte) : BitVec.ofInt 8 ((a.toNat : Int) - m.toNat) = a - m := by
  apply BitVec.eq_of_toNat_eq
  have ha := a.isLt
  have hm := m.isLt
  simp [BitVec.toNat_ofInt, BitVec.toNat_sub]
  omega

/-! ## The fields of the flags after each computation -/

@[simp] theorem Flags.setNZ_n (f : Flags) (v : Byte) : (f.setNZ v).n = v.msb := rfl
@[simp] theorem Flags.setNZ_z (f : Flags) (v : Byte) : (f.setNZ v).z = (v == 0#8) := rfl
@[simp] theorem Flags.setNZ_v (f : Flags) (v : Byte) : (f.setNZ v).v = f.v := rfl
@[simp] theorem Flags.setNZ_d (f : Flags) (v : Byte) : (f.setNZ v).d = f.d := rfl
@[simp] theorem Flags.setNZ_i (f : Flags) (v : Byte) : (f.setNZ v).i = f.i := rfl
@[simp] theorem Flags.setNZ_c (f : Flags) (v : Byte) : (f.setNZ v).c = f.c := rfl

theorem Flags.afterArith_eq (f : Flags) (r : ArithResult) :
    f.afterArith r = { f with n := r.value.msb, z := r.value == 0#8, v := r.overflow, c := r.carry } := rfl

theorem Flags.afterShift_eq (f : Flags) (r : ShiftResult) :
    f.afterShift r = { f with n := r.value.msb, z := r.value == 0#8, c := r.carry } := rfl

theorem Flags.afterBit_eq (f : Flags) (a m : Byte) :
    f.afterBit a m = { f with n := m.getLsbD 7, v := m.getLsbD 6, z := (a &&& m) == 0#8 } := rfl

theorem Flags.afterCompare_eq (f : Flags) (reg m : Byte) :
    f.afterCompare reg m = { f with n := (reg - m).msb, z := reg - m == 0#8, c := decide (m.toNat ≤ reg.toNat) } := by
  have hc : decide ((0 : Int) ≤ (reg.toNat : Int) - m.toNat) = decide (m.toNat ≤ reg.toNat) := by
    rw [decide_eq_decide]
    omega
  simp only [Flags.afterCompare, ofInt_sub, hc, Flags.setNZ]

end Sys2Proof.Machine
end

