-- ==== Sys2Proof/Laws/PerInstr.lean ====
section
/-! SUPPORT. Facts about the instruction as syntax, one lemma per constructor. -/

namespace Sys2Proof.Laws.EncodedLength

/-- The words of an instruction are as many as its mode's operand bytes and one opcode byte (rule R41). -/
def Statement (i : Instr) : Prop := (encode i).length = i.length

theorem adcImm (v : Byte) : Statement (.adcImm v) := rfl
theorem adcZp (z : Byte) : Statement (.adcZp z) := rfl
theorem adcZpX (z : Byte) : Statement (.adcZpX z) := rfl
theorem adcAbs (w : Addr) : Statement (.adcAbs w) := rfl
theorem adcAbsX (w : Addr) : Statement (.adcAbsX w) := rfl
theorem adcAbsY (w : Addr) : Statement (.adcAbsY w) := rfl
theorem adcIndX (z : Byte) : Statement (.adcIndX z) := rfl
theorem adcIndY (z : Byte) : Statement (.adcIndY z) := rfl
theorem sbcImm (v : Byte) : Statement (.sbcImm v) := rfl
theorem sbcZp (z : Byte) : Statement (.sbcZp z) := rfl
theorem sbcZpX (z : Byte) : Statement (.sbcZpX z) := rfl
theorem sbcAbs (w : Addr) : Statement (.sbcAbs w) := rfl
theorem sbcAbsX (w : Addr) : Statement (.sbcAbsX w) := rfl
theorem sbcAbsY (w : Addr) : Statement (.sbcAbsY w) := rfl
theorem sbcIndX (z : Byte) : Statement (.sbcIndX z) := rfl
theorem sbcIndY (z : Byte) : Statement (.sbcIndY z) := rfl
theorem cmpImm (v : Byte) : Statement (.cmpImm v) := rfl
theorem cmpZp (z : Byte) : Statement (.cmpZp z) := rfl
theorem cmpZpX (z : Byte) : Statement (.cmpZpX z) := rfl
theorem cmpAbs (w : Addr) : Statement (.cmpAbs w) := rfl
theorem cmpAbsX (w : Addr) : Statement (.cmpAbsX w) := rfl
theorem cmpAbsY (w : Addr) : Statement (.cmpAbsY w) := rfl
theorem cmpIndX (z : Byte) : Statement (.cmpIndX z) := rfl
theorem cmpIndY (z : Byte) : Statement (.cmpIndY z) := rfl
theorem cpxImm (v : Byte) : Statement (.cpxImm v) := rfl
theorem cpxZp (z : Byte) : Statement (.cpxZp z) := rfl
theorem cpxAbs (w : Addr) : Statement (.cpxAbs w) := rfl
theorem cpyImm (v : Byte) : Statement (.cpyImm v) := rfl
theorem cpyZp (z : Byte) : Statement (.cpyZp z) := rfl
theorem cpyAbs (w : Addr) : Statement (.cpyAbs w) := rfl
theorem aslAcc : Statement (.aslAcc) := rfl
theorem aslZp (z : Byte) : Statement (.aslZp z) := rfl
theorem aslZpX (z : Byte) : Statement (.aslZpX z) := rfl
theorem aslAbs (w : Addr) : Statement (.aslAbs w) := rfl
theorem aslAbsX (w : Addr) : Statement (.aslAbsX w) := rfl
theorem lsrAcc : Statement (.lsrAcc) := rfl
theorem lsrZp (z : Byte) : Statement (.lsrZp z) := rfl
theorem lsrZpX (z : Byte) : Statement (.lsrZpX z) := rfl
theorem lsrAbs (w : Addr) : Statement (.lsrAbs w) := rfl
theorem lsrAbsX (w : Addr) : Statement (.lsrAbsX w) := rfl
theorem rolAcc : Statement (.rolAcc) := rfl
theorem rolZp (z : Byte) : Statement (.rolZp z) := rfl
theorem rolZpX (z : Byte) : Statement (.rolZpX z) := rfl
theorem rolAbs (w : Addr) : Statement (.rolAbs w) := rfl
theorem rolAbsX (w : Addr) : Statement (.rolAbsX w) := rfl
theorem rorAcc : Statement (.rorAcc) := rfl
theorem rorZp (z : Byte) : Statement (.rorZp z) := rfl
theorem rorZpX (z : Byte) : Statement (.rorZpX z) := rfl
theorem rorAbs (w : Addr) : Statement (.rorAbs w) := rfl
theorem rorAbsX (w : Addr) : Statement (.rorAbsX w) := rfl
theorem bitZp (z : Byte) : Statement (.bitZp z) := rfl
theorem bitAbs (w : Addr) : Statement (.bitAbs w) := rfl
theorem andImm (v : Byte) : Statement (.andImm v) := rfl
theorem andZp (z : Byte) : Statement (.andZp z) := rfl
theorem andZpX (z : Byte) : Statement (.andZpX z) := rfl
theorem andAbs (w : Addr) : Statement (.andAbs w) := rfl
theorem andAbsX (w : Addr) : Statement (.andAbsX w) := rfl
theorem andAbsY (w : Addr) : Statement (.andAbsY w) := rfl
theorem andIndX (z : Byte) : Statement (.andIndX z) := rfl
theorem andIndY (z : Byte) : Statement (.andIndY z) := rfl
theorem oraImm (v : Byte) : Statement (.oraImm v) := rfl
theorem oraZp (z : Byte) : Statement (.oraZp z) := rfl
theorem oraZpX (z : Byte) : Statement (.oraZpX z) := rfl
theorem oraAbs (w : Addr) : Statement (.oraAbs w) := rfl
theorem oraAbsX (w : Addr) : Statement (.oraAbsX w) := rfl
theorem oraAbsY (w : Addr) : Statement (.oraAbsY w) := rfl
theorem oraIndX (z : Byte) : Statement (.oraIndX z) := rfl
theorem oraIndY (z : Byte) : Statement (.oraIndY z) := rfl
theorem eorImm (v : Byte) : Statement (.eorImm v) := rfl
theorem eorZp (z : Byte) : Statement (.eorZp z) := rfl
theorem eorZpX (z : Byte) : Statement (.eorZpX z) := rfl
theorem eorAbs (w : Addr) : Statement (.eorAbs w) := rfl
theorem eorAbsX (w : Addr) : Statement (.eorAbsX w) := rfl
theorem eorAbsY (w : Addr) : Statement (.eorAbsY w) := rfl
theorem eorIndX (z : Byte) : Statement (.eorIndX z) := rfl
theorem eorIndY (z : Byte) : Statement (.eorIndY z) := rfl
theorem incZp (z : Byte) : Statement (.incZp z) := rfl
theorem incZpX (z : Byte) : Statement (.incZpX z) := rfl
theorem incAbs (w : Addr) : Statement (.incAbs w) := rfl
theorem incAbsX (w : Addr) : Statement (.incAbsX w) := rfl
theorem decZp (z : Byte) : Statement (.decZp z) := rfl
theorem decZpX (z : Byte) : Statement (.decZpX z) := rfl
theorem decAbs (w : Addr) : Statement (.decAbs w) := rfl
theorem decAbsX (w : Addr) : Statement (.decAbsX w) := rfl
theorem inx : Statement (.inx) := rfl
theorem iny : Statement (.iny) := rfl
theorem dex : Statement (.dex) := rfl
theorem dey : Statement (.dey) := rfl
theorem bcc (d : Int) : Statement (.bcc d) := rfl
theorem bcs (d : Int) : Statement (.bcs d) := rfl
theorem beq (d : Int) : Statement (.beq d) := rfl
theorem bne (d : Int) : Statement (.bne d) := rfl
theorem bmi (d : Int) : Statement (.bmi d) := rfl
theorem bpl (d : Int) : Statement (.bpl d) := rfl
theorem bvc (d : Int) : Statement (.bvc d) := rfl
theorem bvs (d : Int) : Statement (.bvs d) := rfl
theorem jmpAbs (w : Addr) : Statement (.jmpAbs w) := rfl
theorem jmpInd (w : Addr) : Statement (.jmpInd w) := rfl
theorem jsr (w : Addr) : Statement (.jsr w) := rfl
theorem rts : Statement (.rts) := rfl
theorem pha : Statement (.pha) := rfl
theorem php : Statement (.php) := rfl
theorem pla : Statement (.pla) := rfl
theorem plp : Statement (.plp) := rfl
theorem brk : Statement (.brk) := rfl
theorem rti : Statement (.rti) := rfl
theorem sec : Statement (.sec) := rfl
theorem clc : Statement (.clc) := rfl
theorem sed : Statement (.sed) := rfl
theorem cld : Statement (.cld) := rfl
theorem sei : Statement (.sei) := rfl
theorem cli : Statement (.cli) := rfl
theorem clv : Statement (.clv) := rfl
theorem nop : Statement (.nop) := rfl
theorem tax : Statement (.tax) := rfl
theorem tay : Statement (.tay) := rfl
theorem txa : Statement (.txa) := rfl
theorem tya : Statement (.tya) := rfl
theorem tsx : Statement (.tsx) := rfl
theorem txs : Statement (.txs) := rfl
theorem ldaImm (v : Byte) : Statement (.ldaImm v) := rfl
theorem ldaZp (z : Byte) : Statement (.ldaZp z) := rfl
theorem ldaZpX (z : Byte) : Statement (.ldaZpX z) := rfl
theorem ldaAbs (w : Addr) : Statement (.ldaAbs w) := rfl
theorem ldaAbsX (w : Addr) : Statement (.ldaAbsX w) := rfl
theorem ldaAbsY (w : Addr) : Statement (.ldaAbsY w) := rfl
theorem ldaIndX (z : Byte) : Statement (.ldaIndX z) := rfl
theorem ldaIndY (z : Byte) : Statement (.ldaIndY z) := rfl
theorem ldxImm (v : Byte) : Statement (.ldxImm v) := rfl
theorem ldxZp (z : Byte) : Statement (.ldxZp z) := rfl
theorem ldxZpY (z : Byte) : Statement (.ldxZpY z) := rfl
theorem ldxAbs (w : Addr) : Statement (.ldxAbs w) := rfl
theorem ldxAbsY (w : Addr) : Statement (.ldxAbsY w) := rfl
theorem ldyImm (v : Byte) : Statement (.ldyImm v) := rfl
theorem ldyZp (z : Byte) : Statement (.ldyZp z) := rfl
theorem ldyZpX (z : Byte) : Statement (.ldyZpX z) := rfl
theorem ldyAbs (w : Addr) : Statement (.ldyAbs w) := rfl
theorem ldyAbsX (w : Addr) : Statement (.ldyAbsX w) := rfl
theorem staZp (z : Byte) : Statement (.staZp z) := rfl
theorem staZpX (z : Byte) : Statement (.staZpX z) := rfl
theorem staAbs (w : Addr) : Statement (.staAbs w) := rfl
theorem staAbsX (w : Addr) : Statement (.staAbsX w) := rfl
theorem staAbsY (w : Addr) : Statement (.staAbsY w) := rfl
theorem staIndX (z : Byte) : Statement (.staIndX z) := rfl
theorem staIndY (z : Byte) : Statement (.staIndY z) := rfl
theorem stxZp (z : Byte) : Statement (.stxZp z) := rfl
theorem stxZpY (z : Byte) : Statement (.stxZpY z) := rfl
theorem stxAbs (w : Addr) : Statement (.stxAbs w) := rfl
theorem styZp (z : Byte) : Statement (.styZp z) := rfl
theorem styZpX (z : Byte) : Statement (.styZpX z) := rfl
theorem styAbs (w : Addr) : Statement (.styAbs w) := rfl

end Sys2Proof.Laws.EncodedLength
end

