-- ==== Sys2Proof/Laws/Step.lean ====
section
/-! SUPPORT. What a step can do: one lemma for fetching and one for the three cases of a tick. -/

namespace Sys2Proof.Machine

variable {s t : State}

/-- The operand bytes that a form takes are the same whether they are read from memory or from a list. -/
theorem decode_eq_build {op : Byte} {r : Row} (h : dispatchEntry op = some r) (b1 b2 : Byte) (rest : List Byte) :
    decode (op :: b1 :: b2 :: rest) = .ok (r.form.build b1 b2, (b1 :: b2 :: rest).drop r.form.len) := by
  cases hf : r.form <;> simp [decode, h, hf, Form.build, Form.len]

/-- A fetch answers what the decoder reads from the bytes at PC (rules R41 to R43). -/
theorem fetch_legal_of_decode {i : Instr} {rest more : List Byte}
    (h : decode (s.read s.pc :: s.read (s.pc + 1#16) :: s.read (s.pc + 2#16) :: more) = .ok (i, rest)) :
    fetch s = .legal i := by
  unfold fetch
  cases he : dispatchEntry (s.read s.pc) with
  | none => rw [decode_illegal he] at h; cases h
  | some r =>
    rw [decode_eq_build he] at h
    cases h
    rfl

/-- A fetch finds an illegal byte exactly where the decoder refuses it (rule R46). -/
theorem fetch_illegal_iff {op : Byte} :
    fetch s = .illegal op ↔ s.read s.pc = op ∧ dispatchEntry op = none := by
  unfold fetch
  cases he : dispatchEntry (s.read s.pc) with
  | none =>
    constructor
    · intro h
      cases h
      exact ⟨rfl, he⟩
    · rintro ⟨rfl, -⟩
      rfl
  | some r =>
    constructor
    · intro h
      cases h
    · rintro ⟨rfl, hn⟩
      rw [hn] at he
      cases he

/-- What a fetched instruction is made of: the row of the byte at PC, and the two bytes after it (rules R42 and R43). -/
theorem fetch_legal {i : Instr} (h : fetch s = .legal i) :
    ∃ r, dispatchEntry (s.read s.pc) = some r ∧ r.form.build (s.read (s.pc + 1#16)) (s.read (s.pc + 2#16)) = i := by
  unfold fetch at h
  cases he : dispatchEntry (s.read s.pc) with
  | none =>
    simp only [he] at h
    cases h
  | some r =>
    simp only [he] at h
    cases h
    exact ⟨r, rfl, rfl⟩

/-- The three cases of a tick (rules R60, R161 and R162). -/
theorem step_cases (s : State) :
    (∃ op at_, s.status = .faulted op at_ ∧ step s = .next s) ∨
      (∃ op, s.status = .running ∧ fetch s = .illegal op ∧ step s = .next { s with status := .faulted op s.pc }) ∨
      ∃ i, s.status = .running ∧ fetch s = .legal i ∧ step s = exec i s := by
  cases hs : s.status with
  | faulted op at_ => exact .inl ⟨op, at_, rfl, by simp [step, hs]⟩
  | running =>
    cases hf : fetch s with
    | illegal op => exact .inr (.inl ⟨op, rfl, rfl, by simp [step, hs, hf, raiseIllegalOpcode_eq]⟩)
    | legal i => exact .inr (.inr ⟨i, rfl, rfl, by simp [step, hs, hf]⟩)

end Sys2Proof.Machine
end

