-- ==== Sys2Proof/Tests/Slice0.lean ====
section
/-! SUPPORT. Tests of the model: ill-formed terms refused, words decoded, single steps against the spec's vectors
(95_test_vectors.md part 2), and for every statement with hypotheses a witness that meets them. Expected results are the
spec's; the words of the decode tests are written out from the encodings of spec/opcode_table.json. -/

namespace Sys2Proof.Tests

open Sys2Proof Sys2Proof.Machine

/-! ## Helpers -/

/-- The reset state with PC at `pc`, an instruction's bytes there, and some more cells written. -/
def before (pc : Addr) (bytes : List Byte) (cells : List (Addr × Byte)) : State :=
  cells.foldl (fun s c => s.write c.1 c.2) (({ State.reset with pc := pc } : State).placeInstruction bytes)

/-- Every word of a list, given as the opcode table numbers it, decodes to the instruction beside it, which encodes to
the bytes of the word. -/
def decodes (words : List (Nat × Nat × Instr)) : Bool :=
  words.all (fun (nbits, w, i) => decide (decodeTableWord nbits w = some i) &&
    decide (encode i = (tableBytes nbits w).take (nbits / 8)))

/-! ## Well-formedness: the check refuses ill-formed terms (rule R49: an offset is in -128 to 127) -/

theorem test_wf_refuses_offsets_above :
    (Instr.bcc 128).wf = false ∧ (Instr.bcs 128).wf = false ∧ (Instr.beq 128).wf = false ∧
      (Instr.bne 1000).wf = false := by
  decide

theorem test_wf_refuses_offsets_below :
    (Instr.bmi (-129)).wf = false ∧ (Instr.bpl (-129)).wf = false ∧ (Instr.bvc (-129)).wf = false ∧
      (Instr.bvs (-1000)).wf = false := by
  decide

theorem test_wf_accepts_the_range :
    (Instr.bcc 127).wf = true ∧ (Instr.bvs (-128)).wf = true ∧ (Instr.ldaImm 0xFF#8).wf = true ∧ Instr.rti.wf = true := by
  decide

/-! ## Decoding: a word of every row of the opcode table -/

theorem test_decode_arithmetic :
    decodes [(16, 0x8E61, .adcIndX 0x8E#8), (16, 0x8E65, .adcZp 0x8E#8), (16, 0x8E69, .adcImm 0x8E#8),
      (24, 0xA55B6D, .adcAbs 0xA55B#16), (16, 0x8E71, .adcIndY 0x8E#8), (16, 0x8E75, .adcZpX 0x8E#8),
      (24, 0xA55B79, .adcAbsY 0xA55B#16), (24, 0xA55B7D, .adcAbsX 0xA55B#16), (16, 0x8EE1, .sbcIndX 0x8E#8),
      (16, 0x8EE5, .sbcZp 0x8E#8), (16, 0x8EE9, .sbcImm 0x8E#8), (24, 0xA55BED, .sbcAbs 0xA55B#16),
      (16, 0x8EF1, .sbcIndY 0x8E#8), (16, 0x8EF5, .sbcZpX 0x8E#8), (24, 0xA55BF9, .sbcAbsY 0xA55B#16),
      (24, 0xA55BFD, .sbcAbsX 0xA55B#16), (16, 0x8EC1, .cmpIndX 0x8E#8), (16, 0x8EC5, .cmpZp 0x8E#8),
      (16, 0x8EC9, .cmpImm 0x8E#8), (24, 0xA55BCD, .cmpAbs 0xA55B#16), (16, 0x8ED1, .cmpIndY 0x8E#8),
      (16, 0x8ED5, .cmpZpX 0x8E#8), (24, 0xA55BD9, .cmpAbsY 0xA55B#16), (24, 0xA55BDD, .cmpAbsX 0xA55B#16),
      (16, 0x8EE0, .cpxImm 0x8E#8), (16, 0x8EE4, .cpxZp 0x8E#8), (24, 0xA55BEC, .cpxAbs 0xA55B#16),
      (16, 0x8EC0, .cpyImm 0x8E#8), (16, 0x8EC4, .cpyZp 0x8E#8), (24, 0xA55BCC, .cpyAbs 0xA55B#16)] = true := by
  decide

theorem test_decode_shift :
    decodes [(16, 0x8E06, .aslZp 0x8E#8), (8, 0x0A, .aslAcc), (24, 0xA55B0E, .aslAbs 0xA55B#16),
      (16, 0x8E16, .aslZpX 0x8E#8), (24, 0xA55B1E, .aslAbsX 0xA55B#16), (16, 0x8E46, .lsrZp 0x8E#8),
      (8, 0x4A, .lsrAcc), (24, 0xA55B4E, .lsrAbs 0xA55B#16), (16, 0x8E56, .lsrZpX 0x8E#8),
      (24, 0xA55B5E, .lsrAbsX 0xA55B#16), (16, 0x8E26, .rolZp 0x8E#8), (8, 0x2A, .rolAcc),
      (24, 0xA55B2E, .rolAbs 0xA55B#16), (16, 0x8E36, .rolZpX 0x8E#8), (24, 0xA55B3E, .rolAbsX 0xA55B#16),
      (16, 0x8E66, .rorZp 0x8E#8), (8, 0x6A, .rorAcc), (24, 0xA55B6E, .rorAbs 0xA55B#16),
      (16, 0x8E76, .rorZpX 0x8E#8), (24, 0xA55B7E, .rorAbsX 0xA55B#16)] = true := by
  decide

theorem test_decode_logic :
    decodes [(16, 0x8E24, .bitZp 0x8E#8), (24, 0xA55B2C, .bitAbs 0xA55B#16), (16, 0x8E21, .andIndX 0x8E#8),
      (16, 0x8E25, .andZp 0x8E#8), (16, 0x8E29, .andImm 0x8E#8), (24, 0xA55B2D, .andAbs 0xA55B#16),
      (16, 0x8E31, .andIndY 0x8E#8), (16, 0x8E35, .andZpX 0x8E#8), (24, 0xA55B39, .andAbsY 0xA55B#16),
      (24, 0xA55B3D, .andAbsX 0xA55B#16), (16, 0x8E01, .oraIndX 0x8E#8), (16, 0x8E05, .oraZp 0x8E#8),
      (16, 0x8E09, .oraImm 0x8E#8), (24, 0xA55B0D, .oraAbs 0xA55B#16), (16, 0x8E11, .oraIndY 0x8E#8),
      (16, 0x8E15, .oraZpX 0x8E#8), (24, 0xA55B19, .oraAbsY 0xA55B#16), (24, 0xA55B1D, .oraAbsX 0xA55B#16),
      (16, 0x8E41, .eorIndX 0x8E#8), (16, 0x8E45, .eorZp 0x8E#8), (16, 0x8E49, .eorImm 0x8E#8),
      (24, 0xA55B4D, .eorAbs 0xA55B#16), (16, 0x8E51, .eorIndY 0x8E#8), (16, 0x8E55, .eorZpX 0x8E#8),
      (24, 0xA55B59, .eorAbsY 0xA55B#16), (24, 0xA55B5D, .eorAbsX 0xA55B#16)] = true := by
  decide

theorem test_decode_incdec :
    decodes [(16, 0x8EE6, .incZp 0x8E#8), (24, 0xA55BEE, .incAbs 0xA55B#16), (16, 0x8EF6, .incZpX 0x8E#8),
      (24, 0xA55BFE, .incAbsX 0xA55B#16), (16, 0x8EC6, .decZp 0x8E#8), (24, 0xA55BCE, .decAbs 0xA55B#16),
      (16, 0x8ED6, .decZpX 0x8E#8), (24, 0xA55BDE, .decAbsX 0xA55B#16), (8, 0xE8, .inx), (8, 0xC8, .iny),
      (8, 0xCA, .dex), (8, 0x88, .dey)] = true := by
  decide

theorem test_decode_branch :
    decodes [(16, 0xF990, .bcc (-7)), (16, 0xF9B0, .bcs (-7)), (16, 0xF9F0, .beq (-7)),
      (16, 0xF9D0, .bne (-7)), (16, 0xF930, .bmi (-7)), (16, 0xF910, .bpl (-7)), (16, 0xF950, .bvc (-7)),
      (16, 0xF970, .bvs (-7))] = true := by
  decide

theorem test_decode_jump :
    decodes [(24, 0xA55B4C, .jmpAbs 0xA55B#16), (24, 0xA55B6C, .jmpInd 0xA55B#16),
      (24, 0xA55B20, .jsr 0xA55B#16), (8, 0x60, .rts)] = true := by
  decide

theorem test_decode_stack :
    decodes [(8, 0x48, .pha), (8, 0x08, .php), (8, 0x68, .pla), (8, 0x28, .plp), (8, 0x00, .brk),
      (8, 0x40, .rti)] = true := by
  decide

theorem test_decode_flag :
    decodes [(8, 0x38, .sec), (8, 0x18, .clc), (8, 0xF8, .sed), (8, 0xD8, .cld), (8, 0x78, .sei),
      (8, 0x58, .cli), (8, 0xB8, .clv), (8, 0xEA, .nop)] = true := by
  decide

theorem test_decode_transfer :
    decodes [(8, 0xAA, .tax), (8, 0xA8, .tay), (8, 0x8A, .txa), (8, 0x98, .tya), (8, 0xBA, .tsx),
      (8, 0x9A, .txs)] = true := by
  decide

theorem test_decode_load :
    decodes [(16, 0x8EA1, .ldaIndX 0x8E#8), (16, 0x8EA5, .ldaZp 0x8E#8), (16, 0x8EA9, .ldaImm 0x8E#8),
      (24, 0xA55BAD, .ldaAbs 0xA55B#16), (16, 0x8EB1, .ldaIndY 0x8E#8), (16, 0x8EB5, .ldaZpX 0x8E#8),
      (24, 0xA55BB9, .ldaAbsY 0xA55B#16), (24, 0xA55BBD, .ldaAbsX 0xA55B#16), (16, 0x8EA2, .ldxImm 0x8E#8),
      (16, 0x8EA6, .ldxZp 0x8E#8), (24, 0xA55BAE, .ldxAbs 0xA55B#16), (16, 0x8EB6, .ldxZpY 0x8E#8),
      (24, 0xA55BBE, .ldxAbsY 0xA55B#16), (16, 0x8EA0, .ldyImm 0x8E#8), (16, 0x8EA4, .ldyZp 0x8E#8),
      (24, 0xA55BAC, .ldyAbs 0xA55B#16), (16, 0x8EB4, .ldyZpX 0x8E#8), (24, 0xA55BBC, .ldyAbsX 0xA55B#16)] = true := by
  decide

theorem test_decode_store :
    decodes [(16, 0x8E81, .staIndX 0x8E#8), (16, 0x8E85, .staZp 0x8E#8), (24, 0xA55B8D, .staAbs 0xA55B#16),
      (16, 0x8E91, .staIndY 0x8E#8), (16, 0x8E95, .staZpX 0x8E#8), (24, 0xA55B99, .staAbsY 0xA55B#16),
      (24, 0xA55B9D, .staAbsX 0xA55B#16), (16, 0x8E86, .stxZp 0x8E#8), (24, 0xA55B8E, .stxAbs 0xA55B#16),
      (16, 0x8E96, .stxZpY 0x8E#8), (16, 0x8E84, .styZp 0x8E#8), (24, 0xA55B8C, .styAbs 0xA55B#16),
      (16, 0x8E94, .styZpX 0x8E#8)] = true := by
  decide

/-- An illegal byte, no byte at all, and too few operand bytes are refused by name. -/
theorem test_decode_refusals :
    decode [0x02#8] = .error (.illegalOpcode 0x02#8) ∧ decode [] = .error .empty ∧
      decode [0xAD#8, 0x34#8] = .error (.missingOperand 0xAD#8) :=
  ⟨rfl, rfl, rfl⟩

/-! ## The host's two ways in -/

/-- `LDA #$8E` as the opcode table numbers its bits, run as the first instruction after reset. -/
theorem test_withFetchWord :
    step (State.reset.withFetchWord 16 0x8EA9) = exec (.ldaImm 0x8E#8) (State.reset.withFetchWord 16 0x8EA9) := by
  rfl

/-- Operand bytes that the table gives no bits are zeros. -/
theorem test_short_word : decodeTableWord 8 0x4C = some (.jmpAbs 0x0000#16) := by
  decide

/-- `load` drops what lies past the top of memory (rule R177). -/
theorem test_load_truncates :
    (State.reset.load [0x11#8, 0x22#8] 0xFFFF#16).read 0xFFFF#16 = 0x11#8 ∧
      (State.reset.load [0x11#8, 0x22#8] 0xFFFF#16).read 0x0000#16 = 0x00#8 := by
  decide

/-- A store of 0x00 removes the cell, so that equal memories are equal lists. -/
theorem test_write_is_canonical :
    ((State.reset.write 0x1234#16 0x56#8).write 0x1234#16 0x00#8).mem = [] := by
  decide

/-- The transactions of `INC $23` in their order: opcode, operand, read, write (rule R36). -/
theorem test_transactions_of_inc :
    transactions (before 0x0600#16 [0xE6#8, 0x23#8] [(0x0023#16, 0x7F#8)]) =
      [.read 0x0600#16 0xE6#8, .read 0x0601#16 0x23#8, .read 0x0023#16 0x7F#8, .write 0x0023#16 0x80#8] := by
  decide

/-! ## Assembler (the spec's scenarios 5 and 6, and the example of rule R51) -/

theorem test_assemble_branch :
    Assembler.assemble ['B', 'N', 'E', ' ', '-', '7'] = .ok [0xD0#8, 0xF9#8] := by
  rfl

theorem test_assemble_unknown_mnemonic :
    Assembler.assemble ['N', 'O', 'P', '\n', 'F', 'O', 'O', ' ', '#', '$', '0', '1'] =
      .error { line := ['F', 'O', 'O', ' ', '#', '$', '0', '1'], reason := .unknownMnemonic } := by
  rfl

theorem test_assemble_no_variant :
    Assembler.assemble ['A', 'D', 'C', ' ', '$', '2', '3', '4', '5', ',', 'Z'] =
      .error { line := ['A', 'D', 'C', ' ', '$', '2', '3', '4', '5', ',', 'Z'], reason := .noMatchingVariant } := by
  rfl

/-! ## Single steps: vectors of 95_test_vectors.md -/

/-- Vector V3: ADC #$01. -/
theorem test_adc_overflow :
    let s : State := { before 0x0600#16 [0x69#8, 0x01#8] [] with a := 0x7F#8 }
    (tick s).a = 0x80#8 ∧ (tick s).pc = 0x0602#16 ∧ (tick s).flags = { Flags.clear with n := true, v := true } := by
  decide

/-- Vector V9: ADC #$09. -/
theorem test_adc_ignores_decimal :
    let s : State := { before 0x0600#16 [0x69#8, 0x09#8] [] with
      a := 0x09#8, flags := { Flags.clear with d := true } }
    (tick s).a = 0x12#8 ∧ (tick s).pc = 0x0602#16 ∧ (tick s).flags = { Flags.clear with d := true } := by
  decide

/-- Vector V11: SBC #$01. -/
theorem test_sbc_borrow :
    let s : State := { before 0x0600#16 [0xE9#8, 0x01#8] [] with a := 0x05#8 }
    (tick s).a = 0x03#8 ∧ (tick s).pc = 0x0602#16 ∧ (tick s).flags = { Flags.clear with c := true } := by
  decide

/-- Vector V14: SBC #$FF. -/
theorem test_sbc_overflow :
    let s : State := { before 0x0600#16 [0xE9#8, 0xFF#8] [] with
      a := 0x7F#8, flags := { Flags.clear with c := true } }
    (tick s).a = 0x80#8 ∧ (tick s).pc = 0x0602#16 ∧ (tick s).flags = { Flags.clear with n := true, v := true } := by
  decide

/-- Vector V19: CMP #$20. -/
theorem test_cmp_less :
    let s : State := { before 0x0600#16 [0xC9#8, 0x20#8] [] with a := 0x10#8 }
    (tick s).pc = 0x0602#16 ∧ (tick s).flags = { Flags.clear with n := true } := by
  decide

/-- Vector V21: CMP #$01. -/
theorem test_cmp_keeps_v :
    let s : State := { before 0x0600#16 [0xC9#8, 0x01#8] [] with
      a := 0x80#8, flags := { Flags.clear with v := true } }
    (tick s).pc = 0x0602#16 ∧ (tick s).flags = { Flags.clear with v := true, c := true } := by
  decide

/-- Vector V23: CPX #$FF. -/
theorem test_cpx_equal :
    let s : State := { before 0x0600#16 [0xE0#8, 0xFF#8] [] with x := 0xFF#8 }
    (tick s).pc = 0x0602#16 ∧ (tick s).flags = { Flags.clear with z := true, c := true } := by
  decide

/-- Vector V24: CPY $10. -/
theorem test_cpy_zeroPage :
    let s : State := { before 0x0600#16 [0xC4#8, 0x10#8] [(0x0010#16, 0x02#8)] with y := 0x01#8 }
    (tick s).pc = 0x0602#16 ∧ (tick s).flags = { Flags.clear with n := true } := by
  decide

/-- Vector V27: ASL A. -/
theorem test_asl_a :
    let s : State := { before 0x0600#16 [0x0A#8] [] with a := 0x40#8, flags := { Flags.clear with c := true } }
    (tick s).a = 0x80#8 ∧ (tick s).pc = 0x0601#16 ∧ (tick s).flags = { Flags.clear with n := true } := by
  decide

/-- Vector V28: ASL $10. -/
theorem test_asl_zeroPage :
    let s : State := before 0x0600#16 [0x06#8, 0x10#8] [(0x0010#16, 0xC0#8)]
    (tick s).pc = 0x0602#16 ∧ (tick s).read 0x0010#16 = 0x80#8 ∧
      (tick s).flags = { Flags.clear with n := true, c := true } := by
  decide

/-- Vector V29: LSR A. -/
theorem test_lsr_a_clears_n :
    let s : State := { before 0x0600#16 [0x4A#8] [] with a := 0x01#8, flags := { Flags.clear with n := true } }
    (tick s).a = 0x00#8 ∧ (tick s).pc = 0x0601#16 ∧ (tick s).flags = { Flags.clear with z := true, c := true } := by
  decide

/-- Vector V31: LSR $10. -/
theorem test_lsr_zeroPage :
    let s : State := { before 0x0600#16 [0x46#8, 0x10#8] [(0x0010#16, 0x02#8)] with
      flags := { Flags.clear with c := true } }
    (tick s).pc = 0x0602#16 ∧ (tick s).read 0x0010#16 = 0x01#8 ∧ (tick s).flags = Flags.clear := by
  decide

/-- Vector V32: ROL A. -/
theorem test_rol_a :
    let s : State := { before 0x0600#16 [0x2A#8] [] with a := 0x80#8, flags := { Flags.clear with c := true } }
    (tick s).a = 0x01#8 ∧ (tick s).pc = 0x0601#16 ∧ (tick s).flags = { Flags.clear with c := true } := by
  decide

/-- Vector V35: ROL $10. -/
theorem test_rol_zeroPage :
    let s : State := { before 0x0600#16 [0x26#8, 0x10#8] [(0x0010#16, 0x55#8)] with
      flags := { Flags.clear with c := true } }
    (tick s).pc = 0x0602#16 ∧ (tick s).read 0x0010#16 = 0xAB#8 ∧ (tick s).flags = { Flags.clear with n := true } := by
  decide

/-- Vector V36: ROR A. -/
theorem test_ror_a :
    let s : State := { before 0x0600#16 [0x6A#8] [] with a := 0x01#8, flags := { Flags.clear with c := true } }
    (tick s).a = 0x80#8 ∧ (tick s).pc = 0x0601#16 ∧ (tick s).flags = { Flags.clear with n := true, c := true } := by
  decide

/-- Vector V39: ROR $1234. -/
theorem test_ror_absolute :
    let s : State := before 0x0600#16 [0x6E#8, 0x34#8, 0x12#8] [(0x1234#16, 0xAA#8)]
    (tick s).pc = 0x0603#16 ∧ (tick s).read 0x1234#16 = 0x55#8 ∧ (tick s).flags = Flags.clear := by
  decide

/-- Vector V41: BIT $10. -/
theorem test_bit_zeroPage :
    let s : State := { before 0x0600#16 [0x24#8, 0x10#8] [(0x0010#16, 0x40#8)] with
      a := 0xFF#8, flags := { Flags.clear with n := true } }
    (tick s).pc = 0x0602#16 ∧ (tick s).flags = { Flags.clear with v := true } := by
  decide

/-- Vector V42: BIT $1234. -/
theorem test_bit_absolute :
    let s : State := { before 0x0600#16 [0x2C#8, 0x34#8, 0x12#8] [(0x1234#16, 0x01#8)] with
      a := 0x01#8, flags := { Flags.clear with v := true, n := true } }
    (tick s).pc = 0x0603#16 ∧ (tick s).flags = Flags.clear := by
  decide

/-- Vector V44: AND #$F0. -/
theorem test_and :
    let s : State := { before 0x0600#16 [0x29#8, 0xF0#8] [] with a := 0xFF#8 }
    (tick s).a = 0xF0#8 ∧ (tick s).pc = 0x0602#16 ∧ (tick s).flags = { Flags.clear with n := true } := by
  decide

/-- Vector V45: ORA #$80. -/
theorem test_ora :
    let s : State := { before 0x0600#16 [0x09#8, 0x80#8] [] with a := 0x01#8 }
    (tick s).a = 0x81#8 ∧ (tick s).pc = 0x0602#16 ∧ (tick s).flags = { Flags.clear with n := true } := by
  decide

/-- Vector V48: EOR #$FF. -/
theorem test_eor :
    let s : State := { before 0x0600#16 [0x49#8, 0xFF#8] [] with a := 0x7F#8 }
    (tick s).a = 0x80#8 ∧ (tick s).pc = 0x0602#16 ∧ (tick s).flags = { Flags.clear with n := true } := by
  decide

/-- Vector V51: INC $23. -/
theorem test_inc :
    let s : State := before 0x0600#16 [0xE6#8, 0x23#8] [(0x0023#16, 0x7F#8)]
    (tick s).pc = 0x0602#16 ∧ (tick s).read 0x0023#16 = 0x80#8 ∧ (tick s).flags = { Flags.clear with n := true } := by
  decide

/-- Vector V52: DEC $23. -/
theorem test_dec_wraps :
    let s : State := before 0x0600#16 [0xC6#8, 0x23#8] []
    (tick s).pc = 0x0602#16 ∧ (tick s).read 0x0023#16 = 0xFF#8 ∧ (tick s).flags = { Flags.clear with n := true } := by
  decide

/-- Vector V54: INX. -/
theorem test_inx_wraps :
    let s : State := { before 0x0600#16 [0xE8#8] [] with x := 0xFF#8 }
    (tick s).x = 0x00#8 ∧ (tick s).pc = 0x0601#16 ∧ (tick s).flags = { Flags.clear with z := true } := by
  decide

/-- Vector V55: INY. -/
theorem test_iny :
    let s : State := { before 0x0600#16 [0xC8#8] [] with y := 0x7F#8 }
    (tick s).y = 0x80#8 ∧ (tick s).pc = 0x0601#16 ∧ (tick s).flags = { Flags.clear with n := true } := by
  decide

/-- Vector V56: DEX. -/
theorem test_dex_wraps :
    let s : State := before 0x0600#16 [0xCA#8] []
    (tick s).x = 0xFF#8 ∧ (tick s).pc = 0x0601#16 ∧ (tick s).flags = { Flags.clear with n := true } := by
  decide

/-- Vector V57: DEY. -/
theorem test_dey :
    let s : State := { before 0x0600#16 [0x88#8] [] with y := 0x01#8 }
    (tick s).y = 0x00#8 ∧ (tick s).pc = 0x0601#16 ∧ (tick s).flags = { Flags.clear with z := true } := by
  decide

/-- Vector V59: LDA $80. -/
theorem test_lda_zeroPage :
    let s : State := before 0x0600#16 [0xA5#8, 0x80#8] [(0x0080#16, 0x99#8)]
    (tick s).a = 0x99#8 ∧ (tick s).pc = 0x0602#16 ∧ (tick s).flags = { Flags.clear with n := true } := by
  decide

/-- Vector V60: LDA $F0,X. -/
theorem test_lda_zeroPageX_wraps :
    let s : State := { before 0x0600#16 [0xB5#8, 0xF0#8] [(0x0010#16, 0x42#8), (0x0110#16, 0x77#8)] with
      x := 0x20#8 }
    (tick s).a = 0x42#8 ∧ (tick s).pc = 0x0602#16 ∧ (tick s).flags = Flags.clear := by
  decide

/-- Vector V63: LDA $FFF0,X. -/
theorem test_lda_absoluteX_wraps :
    let s : State := { before 0x0600#16 [0xBD#8, 0xF0#8, 0xFF#8] [(0x0010#16, 0x33#8)] with x := 0x20#8 }
    (tick s).a = 0x33#8 ∧ (tick s).pc = 0x0603#16 ∧ (tick s).flags = Flags.clear := by
  decide

/-- Vector V64: LDA $12F0,Y. -/
theorem test_lda_absoluteY :
    let s : State := { before 0x0600#16 [0xB9#8, 0xF0#8, 0x12#8] [(0x1310#16, 0x44#8)] with y := 0x20#8 }
    (tick s).a = 0x44#8 ∧ (tick s).pc = 0x0603#16 ∧ (tick s).flags = Flags.clear := by
  decide

/-- Vector V65: LDA ($F0,X). -/
theorem test_lda_indexedIndirect_pointer_wraps :
    let s : State := { before 0x0600#16 [0xA1#8, 0xF0#8] [(0x0000#16, 0x12#8), (0x00FF#16, 0x34#8), (0x0100#16, 0x99#8), (0x1234#16, 0xAB#8), (0x9934#16, 0xCD#8)] with
      x := 0x0F#8 }
    (tick s).a = 0xAB#8 ∧ (tick s).pc = 0x0602#16 ∧ (tick s).flags = { Flags.clear with n := true } := by
  decide

/-- Vector V68: LDA ($FF),Y. -/
theorem test_lda_indirectIndexed_pointer_wraps :
    let s : State := { before 0x0600#16 [0xB1#8, 0xFF#8] [(0x0000#16, 0xFF#8), (0x00FF#16, 0xFF#8), (0x0100#16, 0x12#8)] with
      y := 0x01#8 }
    (tick s).a = 0xFF#8 ∧ (tick s).pc = 0x0602#16 ∧ (tick s).flags = { Flags.clear with n := true } := by
  decide

/-- Vector V61: LDX $F0,Y. -/
theorem test_ldx_zeroPageY_wraps :
    let s : State := { before 0x0600#16 [0xB6#8, 0xF0#8] [(0x0010#16, 0x42#8), (0x0110#16, 0x77#8)] with
      y := 0x20#8 }
    (tick s).x = 0x42#8 ∧ (tick s).pc = 0x0602#16 ∧ (tick s).flags = Flags.clear := by
  decide

/-- Vector V73: LDY #$80. -/
theorem test_ldy :
    let s : State := before 0x0600#16 [0xA0#8, 0x80#8] []
    (tick s).y = 0x80#8 ∧ (tick s).pc = 0x0602#16 ∧ (tick s).flags = { Flags.clear with n := true } := by
  decide

/-- Vector V69: STA ($20),Y. -/
theorem test_sta_indirectIndexed :
    let s : State := { before 0x0600#16 [0x91#8, 0x20#8] [(0x0020#16, 0xF8#8), (0x0021#16, 0x12#8)] with
      a := 0x5A#8, y := 0x10#8 }
    (tick s).pc = 0x0602#16 ∧ (tick s).read 0x1308#16 = 0x5A#8 ∧ (tick s).flags = Flags.clear := by
  decide

/-- Vector V70: STA $10,X. -/
theorem test_sta_zeroPageX_wraps :
    let s : State := { before 0x0600#16 [0x95#8, 0x10#8] [] with a := 0x77#8, x := 0xFF#8 }
    (tick s).pc = 0x0602#16 ∧ (tick s).read 0x000F#16 = 0x77#8 ∧ (tick s).read 0x010F#16 = 0x00#8 ∧
      (tick s).flags = Flags.clear := by
  decide

/-- Vector V71: STX $10,Y. -/
theorem test_stx_zeroPageY :
    let s : State := { before 0x0600#16 [0x96#8, 0x10#8] [] with x := 0x88#8, y := 0x01#8 }
    (tick s).pc = 0x0602#16 ∧ (tick s).read 0x0011#16 = 0x88#8 ∧ (tick s).flags = Flags.clear := by
  decide

/-- Vector V72: STY $1234. -/
theorem test_sty_absolute :
    let s : State := { before 0x0600#16 [0x8C#8, 0x34#8, 0x12#8] [] with y := 0x99#8 }
    (tick s).pc = 0x0603#16 ∧ (tick s).read 0x1234#16 = 0x99#8 ∧ (tick s).flags = Flags.clear := by
  decide

/-- Vector V75: TAX. -/
theorem test_tax :
    let s : State := { before 0x0600#16 [0xAA#8] [] with a := 0x80#8 }
    (tick s).x = 0x80#8 ∧ (tick s).pc = 0x0601#16 ∧ (tick s).flags = { Flags.clear with n := true } := by
  decide

/-- Vector V76: TAY. -/
theorem test_tay :
    let s : State := { before 0x0600#16 [0xA8#8] [] with y := 0x05#8 }
    (tick s).y = 0x00#8 ∧ (tick s).pc = 0x0601#16 ∧ (tick s).flags = { Flags.clear with z := true } := by
  decide

/-- Vector V77: TXA. -/
theorem test_txa :
    let s : State := { before 0x0600#16 [0x8A#8] [] with
      x := 0x7F#8, a := 0x80#8, flags := { Flags.clear with n := true } }
    (tick s).a = 0x7F#8 ∧ (tick s).pc = 0x0601#16 ∧ (tick s).flags = Flags.clear := by
  decide

/-- Vector V78: TYA. -/
theorem test_tya :
    let s : State := { before 0x0600#16 [0x98#8] [] with y := 0xFF#8 }
    (tick s).a = 0xFF#8 ∧ (tick s).pc = 0x0601#16 ∧ (tick s).flags = { Flags.clear with n := true } := by
  decide

/-- Vector V79: TSX. -/
theorem test_tsx :
    let s : State := before 0x0600#16 [0xBA#8] []
    (tick s).x = 0xFF#8 ∧ (tick s).pc = 0x0601#16 ∧ (tick s).flags = { Flags.clear with n := true } := by
  decide

/-- Vector V81: TXS. -/
theorem test_txs_keeps_flags :
    let s : State := { before 0x0600#16 [0x9A#8] [] with x := 0x00#8, flags := { Flags.clear with n := true } }
    (tick s).sp = 0x00#8 ∧ (tick s).pc = 0x0601#16 ∧ (tick s).flags = { Flags.clear with n := true } := by
  decide

/-- Vector V83: SEC. -/
theorem test_sec :
    let s : State := before 0x0600#16 [0x38#8] []
    (tick s).pc = 0x0601#16 ∧ (tick s).flags = { Flags.clear with c := true } := by
  decide

/-- Vector V84: CLC. -/
theorem test_clc :
    let s : State := { before 0x0600#16 [0x18#8] [] with flags := { Flags.clear with c := true } }
    (tick s).pc = 0x0601#16 ∧ (tick s).flags = Flags.clear := by
  decide

/-- Vector V85: SED. -/
theorem test_sed :
    let s : State := before 0x0600#16 [0xF8#8] []
    (tick s).pc = 0x0601#16 ∧ (tick s).flags = { Flags.clear with d := true } := by
  decide

/-- Vector V86: CLD. -/
theorem test_cld :
    let s : State := { before 0x0600#16 [0xD8#8] [] with flags := { Flags.clear with d := true } }
    (tick s).pc = 0x0601#16 ∧ (tick s).flags = Flags.clear := by
  decide

/-- Vector V87: SEI. -/
theorem test_sei :
    let s : State := before 0x0600#16 [0x78#8] []
    (tick s).pc = 0x0601#16 ∧ (tick s).flags = { Flags.clear with i := true } := by
  decide

/-- Vector V88: CLI. -/
theorem test_cli :
    let s : State := { before 0x0600#16 [0x58#8] [] with flags := { Flags.clear with i := true } }
    (tick s).pc = 0x0601#16 ∧ (tick s).flags = Flags.clear := by
  decide

/-- Vector V89: CLV. -/
theorem test_clv :
    let s : State := { before 0x0600#16 [0xB8#8] [] with flags := { Flags.clear with v := true } }
    (tick s).pc = 0x0601#16 ∧ (tick s).flags = Flags.clear := by
  decide

/-- Vector V90: NOP. -/
theorem test_nop :
    let s : State := before 0x0600#16 [0xEA#8] []
    (tick s).pc = 0x0601#16 ∧ (tick s).flags = Flags.clear := by
  decide

/-- Vector V92: PHA. -/
theorem test_pha_wraps :
    let s : State := { before 0x0600#16 [0x48#8] [] with a := 0x42#8, sp := 0x00#8 }
    (tick s).sp = 0xFF#8 ∧ (tick s).pc = 0x0601#16 ∧ (tick s).read 0x0100#16 = 0x42#8 ∧ (tick s).flags = Flags.clear := by
  decide

/-- Vector V95: PHP. -/
theorem test_php :
    let s : State := { before 0x0600#16 [0x08#8] [] with flags := { Flags.clear with n := true, c := true } }
    (tick s).sp = 0xFE#8 ∧ (tick s).pc = 0x0601#16 ∧ (tick s).read 0x01FF#16 = 0xB1#8 ∧
      (tick s).flags = { Flags.clear with n := true, c := true } := by
  decide

/-- Vector V97: PLA. -/
theorem test_pla_wraps :
    let s : State := { before 0x0600#16 [0x68#8] [(0x0100#16, 0x00#8)] with a := 0x05#8, sp := 0xFF#8 }
    (tick s).a = 0x00#8 ∧ (tick s).sp = 0x00#8 ∧ (tick s).pc = 0x0601#16 ∧
      (tick s).flags = { Flags.clear with z := true } := by
  decide

/-- Vector V100: PLP. -/
theorem test_plp :
    let s : State := { before 0x0600#16 [0x28#8] [(0x01FF#16, 0xC3#8)] with sp := 0xFE#8 }
    (tick s).sp = 0xFF#8 ∧ (tick s).pc = 0x0601#16 ∧
      (tick s).flags = { Flags.clear with n := true, v := true, z := true, c := true } := by
  decide

/-- Vector V101: BNE 5. -/
theorem test_bne_taken :
    let s : State := before 0x0600#16 [0xD0#8, 0x05#8] []
    (tick s).pc = 0x0607#16 ∧ (tick s).flags = Flags.clear := by
  decide

/-- Vector V104: BEQ -128. -/
theorem test_beq_backwards :
    let s : State := { before 0x0600#16 [0xF0#8, 0x80#8] [] with flags := { Flags.clear with z := true } }
    (tick s).pc = 0x0582#16 ∧ (tick s).flags = { Flags.clear with z := true } := by
  decide

/-- Vector V105: BCC 127. -/
theorem test_bcc_forwards :
    let s : State := before 0x0600#16 [0x90#8, 0x7F#8] []
    (tick s).pc = 0x0681#16 ∧ (tick s).flags = Flags.clear := by
  decide

/-- Vector V107: BCS 4. -/
theorem test_bcs_not_taken :
    let s : State := before 0x0600#16 [0xB0#8, 0x04#8] []
    (tick s).pc = 0x0602#16 ∧ (tick s).flags = Flags.clear := by
  decide

/-- Vector V114: BMI -16. -/
theorem test_bmi_below_zero :
    let s : State := { before 0x0004#16 [0x30#8, 0xF0#8] [] with flags := { Flags.clear with n := true } }
    (tick s).pc = 0xFFF6#16 ∧ (tick s).flags = { Flags.clear with n := true } := by
  decide

/-- Vector V113: BPL 16. -/
theorem test_bpl_past_the_top :
    let s : State := before 0xFFF8#16 [0x10#8, 0x10#8] []
    (tick s).pc = 0x000A#16 ∧ (tick s).flags = Flags.clear := by
  decide

/-- Vector V110: BVC 2. -/
theorem test_bvc :
    let s : State := before 0x0600#16 [0x50#8, 0x02#8] []
    (tick s).pc = 0x0604#16 ∧ (tick s).flags = Flags.clear := by
  decide

/-- Vector V111: BVS 2. -/
theorem test_bvs :
    let s : State := { before 0x0600#16 [0x70#8, 0x02#8] [] with flags := { Flags.clear with v := true } }
    (tick s).pc = 0x0604#16 ∧ (tick s).flags = { Flags.clear with v := true } := by
  decide

/-- Vector V115: JMP $1234. -/
theorem test_jmp_absolute :
    let s : State := before 0x0600#16 [0x4C#8, 0x34#8, 0x12#8] []
    (tick s).pc = 0x1234#16 ∧ (tick s).flags = Flags.clear := by
  decide

/-- Vector V117: JMP ($FFFF). -/
theorem test_jmp_indirect_wraps :
    let s : State := before 0x0600#16 [0x6C#8, 0xFF#8, 0xFF#8] [(0x0000#16, 0x12#8), (0xFFFF#16, 0x34#8)]
    (tick s).pc = 0x1234#16 ∧ (tick s).flags = Flags.clear := by
  decide

/-- Vector V119: JSR $1234. -/
theorem test_jsr_wraps :
    let s : State := { before 0x0600#16 [0x20#8, 0x34#8, 0x12#8] [] with sp := 0x00#8 }
    (tick s).sp = 0xFE#8 ∧ (tick s).pc = 0x1234#16 ∧ (tick s).read 0x0100#16 = 0x06#8 ∧
      (tick s).read 0x01FF#16 = 0x03#8 ∧ (tick s).flags = Flags.clear := by
  decide

/-- Vector V120: RTS. -/
theorem test_rts :
    let s : State := { before 0x0600#16 [0x60#8] [(0x01FE#16, 0x03#8), (0x01FF#16, 0x06#8)] with sp := 0xFD#8 }
    (tick s).sp = 0xFF#8 ∧ (tick s).pc = 0x0603#16 ∧ (tick s).flags = Flags.clear := by
  decide

/-- Vector V121: BRK. -/
theorem test_brk :
    let s : State := { before 0x0600#16 [0x00#8] [(0xFFFE#16, 0x00#8), (0xFFFF#16, 0x90#8)] with
      flags := { Flags.clear with c := true } }
    (tick s).sp = 0xFC#8 ∧ (tick s).pc = 0x9000#16 ∧ (tick s).read 0x01FF#16 = 0x06#8 ∧
      (tick s).read 0x01FE#16 = 0x02#8 ∧ (tick s).read 0x01FD#16 = 0x31#8 ∧
      (tick s).flags = { Flags.clear with c := true } := by
  decide

/-- Vector V122: BRK. -/
theorem test_brk_wraps :
    let s : State := { before 0x0600#16 [0x00#8] [] with sp := 0x01#8 }
    (tick s).sp = 0xFE#8 ∧ (tick s).pc = 0x0000#16 ∧ (tick s).read 0x0101#16 = 0x06#8 ∧
      (tick s).read 0x0100#16 = 0x02#8 ∧ (tick s).read 0x01FF#16 = 0x30#8 ∧ (tick s).flags = Flags.clear := by
  decide

/-- Vector V123: RTI. -/
theorem test_rti :
    let s : State := { before 0x0600#16 [0x40#8] [(0x01FD#16, 0xC3#8), (0x01FE#16, 0x02#8), (0x01FF#16, 0x06#8)] with
      sp := 0xFC#8 }
    (tick s).sp = 0xFF#8 ∧ (tick s).pc = 0x0602#16 ∧
      (tick s).flags = { Flags.clear with n := true, v := true, z := true, c := true } := by
  decide

/-- Vector V124: (illegal byte 02). -/
theorem test_illegal_opcode :
    let s : State := { before 0x0600#16 [0x02#8] [] with a := 0x07#8 }
    (tick s).pc = 0x0600#16 ∧ (tick s).flags = Flags.clear ∧ (tick s).status = .faulted 0x02#8 0x0600#16 := by
  decide

/-- Vector V126: NOP. -/
theorem test_pc_wraps :
    let s : State := before 0xFFFF#16 [0xEA#8] []
    (tick s).pc = 0x0000#16 ∧ (tick s).flags = Flags.clear := by
  decide

/-- Vector V128: LDA $1234, opcode at FFFE, operand bytes at FFFF and 0000. -/
theorem test_operand_fetch_wraps :
    let s : State := before 0xFFFE#16 [0xAD#8, 0x34#8, 0x12#8] [(0x1234#16, 0x77#8)]
    (tick s).a = 0x77#8 ∧ (tick s).pc = 0x0001#16 ∧ (tick s).flags = Flags.clear := by
  decide

/-! ## Witnesses: for each statement with hypotheses, inputs that meet them

A statement over a list of instructions gets a witness for each of them, a statement of several clauses one for each. -/

theorem witness_LoadStoresBytesAndTruncatesAtTheCeiling :
    (([0x11#8, 0x22#8] : List Byte)[0]? = some 0x11#8 ∧ (0xFFFF#16).toNat + 0 ≤ 0xFFFF) ∧
      ((0xFFFE#16).toNat < (0xFFFF#16).toNat) ∧
      (0x0600#16).toNat + ([0x11#8] : List Byte).length ≤ (0x0601#16).toNat := by
  decide

theorem witness_WriteSetsOneCellAndOnlyListedInstructionsWrite :
    (∃ t, exec (.ldaAbs 0xFFFF#16) State.reset = .next t ∧ (Instr.ldaAbs 0xFFFF#16).mnemonic ∉
      ([.STA, .STX, .STY, .INC, .DEC, .ASL, .LSR, .ROL, .ROR, .PHA, .PHP, .JSR, .BRK] : List Mnemonic)) ∧
    ∃ t, exec .rorAcc State.reset = .next t ∧ Instr.rorAcc.operand = .accumulator :=
  ⟨⟨_, rfl, by decide⟩, _, rfl, rfl⟩

/-- With the operand bytes on both sides of the top of memory, and for each of the four operands. -/
theorem witness_WordReadsAreLittleEndianAndWrap :
    ∀ p ∈ ([(0xAD#8, .ldaAbs 0x1234#16), (0xBD#8, .ldaAbsX 0x1234#16), (0xB9#8, .ldaAbsY 0x1234#16),
        (0x6C#8, .jmpInd 0x1234#16)] : List (Byte × Instr)),
      fetch (before 0xFFFE#16 [p.1, 0x34#8, 0x12#8] []) = .legal p.2 ∧
        p.2.operand ∈ ([.absolute 0x1234#16, .absoluteX 0x1234#16, .absoluteY 0x1234#16, .indirect 0x1234#16] :
          List Operand) := by
  decide

theorem witness_PoppingReversesPushing : (List.replicate 256 0xFF#8).length ≤ 256 := by rw [List.length_replicate]

theorem witness_EffectiveAddressesWrapAtTheirWidth :
    fetch (before 0xFFFF#16 [0x90#8, 0x80#8] []) = .legal (.bcc (-128)) ∧
      fetch (before 0xFFFF#16 [0x90#8, 0x7F#8] []) = .legal (.bcc 127) ∧
      fetch (before 0xFFFF#16 [0xA9#8, 0x55#8] []) = .legal (.ldaImm 0x55#8) := by
  decide

theorem witness_PointerAndRelativeModesResolve : offsetInRange (-128) = true ∧ offsetInRange 127 = true := by decide

theorem witness_OperandIsTheByteAtTheEffectiveAddress :
    let s : State := before 0xFFFF#16 [0xA9#8, 0x55#8] []
    fetch s = .legal (.ldaImm 0x55#8) ∧ resolve (Instr.ldaImm 0x55#8).operand s = some 0x0000#16 ∧
      operandByte (Instr.ldaImm 0x55#8).operand s = some 0x55#8 := by
  decide

theorem witness_AdcAddsTheOperandAndCarryInEveryForm :
    (Instr.adcImm 0xFF#8).mnemonic = .ADC ∧ (Instr.adcIndY 0xFF#8).mnemonic = .ADC := by
  decide

theorem witness_AdcFlagsSayUnsignedAndSignedOverflow :
    (Instr.adcImm 0x7F#8).mnemonic = .ADC ∧ operandByte (Instr.adcImm 0x7F#8).operand State.reset = some 0x7F#8 := by
  decide

theorem witness_SbcSubtractsWithBorrowInEveryForm :
    (Instr.sbcImm 0x80#8).mnemonic = .SBC ∧ (Instr.sbcIndX 0xFF#8).mnemonic = .SBC := by
  decide

theorem witness_SbcIsAdcOfTheComplement : (Instr.sbcAbsY 0xFFFF#16).mnemonic = .SBC := by decide

theorem witness_ComparesSetCarryNegativeAndZeroOnly (s : State) :
    ((Instr.cmpImm 0xFF#8).mnemonic, s.a) ∈ ([(.CMP, s.a), (.CPX, s.x), (.CPY, s.y)] : List (Mnemonic × Byte)) ∧
    ((Instr.cpxZp 0xFF#8).mnemonic, s.x) ∈ ([(.CMP, s.a), (.CPX, s.x), (.CPY, s.y)] : List (Mnemonic × Byte)) ∧
    ((Instr.cpyAbs 0xFFFF#16).mnemonic, s.y) ∈ ([(.CMP, s.a), (.CPX, s.x), (.CPY, s.y)] : List (Mnemonic × Byte)) := by
  simp [Instr.mnemonic]

theorem witness_DecimalAndInterruptFlagsSteerNothing :
    ∃ t, (Instr.adcImm 0x09#8).mnemonic ∉ ([.SED, .CLD, .SEI, .CLI, .PHP, .PLP, .BRK, .RTI] : List Mnemonic) ∧
      exec (.adcImm 0x09#8) { State.reset with flags := { Flags.clear with d := true } } = .next t :=
  ⟨_, by decide, rfl⟩

/-- At the top of memory, for each of the four mnemonics. -/
theorem witness_ShiftsOfMemoryByOnePlace :
    let s : State := (State.reset.write 0xFFFF#16 0x81#8).setFlags { Flags.clear with c := true }
    (∀ i ∈ ([.aslAbs 0xFFFF#16, .lsrAbs 0xFFFF#16, .rolAbs 0xFFFF#16, .rorAbs 0xFFFF#16] : List Instr),
      resolve i.operand s = some 0xFFFF#16) ∧
    ([((Instr.aslAbs 0xFFFF#16).mnemonic, 0x02#8, true), ((Instr.lsrAbs 0xFFFF#16).mnemonic, 0x40#8, true),
      ((Instr.rolAbs 0xFFFF#16).mnemonic, 0x03#8, true), ((Instr.rorAbs 0xFFFF#16).mnemonic, 0xC0#8, true)] :
        List (Mnemonic × Byte × Bool)) = [
      (.ASL, BitVec.ofNat 8 (2 * (s.read 0xFFFF#16).toNat), decide (128 ≤ (s.read 0xFFFF#16).toNat)),
      (.LSR, BitVec.ofNat 8 ((s.read 0xFFFF#16).toNat / 2), decide ((s.read 0xFFFF#16).toNat % 2 = 1)),
      (.ROL, BitVec.ofNat 8 (2 * (s.read 0xFFFF#16).toNat + s.flags.c.toNat), decide (128 ≤ (s.read 0xFFFF#16).toNat)),
      (.ROR, BitVec.ofNat 8 ((s.read 0xFFFF#16).toNat / 2 + 128 * s.flags.c.toNat),
        decide ((s.read 0xFFFF#16).toNat % 2 = 1))] := by
  decide

theorem witness_ShiftsOfTheAccumulatorByOnePlace :
    let s : State := { State.reset with a := 0x81#8, flags := { Flags.clear with c := true } }
    ([(.aslAcc, 0x02#8, true), (.lsrAcc, 0x40#8, true), (.rolAcc, 0x03#8, true), (.rorAcc, 0xC0#8, true)] :
        List (Instr × Byte × Bool)) = [
      (.aslAcc, BitVec.ofNat 8 (2 * s.a.toNat), decide (128 ≤ s.a.toNat)),
      (.lsrAcc, BitVec.ofNat 8 (s.a.toNat / 2), decide (s.a.toNat % 2 = 1)),
      (.rolAcc, BitVec.ofNat 8 (2 * s.a.toNat + s.flags.c.toNat), decide (128 ≤ s.a.toNat)),
      (.rorAcc, BitVec.ofNat 8 (s.a.toNat / 2 + 128 * s.flags.c.toNat), decide (s.a.toNat % 2 = 1))] := by
  decide

theorem witness_BitCopiesTwoBitsAndTestsTheRest :
    (Instr.bitZp 0xFF#8).mnemonic = .BIT ∧ (Instr.bitAbs 0xFFFF#16).mnemonic = .BIT := by
  decide

theorem witness_LogicInstructionsWriteAAndNZ :
    ∀ i ∈ ([.andImm 0x00#8, .oraIndX 0xFF#8, .eorIndY 0xFF#8] : List Instr),
      i.mnemonic ∈ ([.AND, .ORA, .EOR] : List Mnemonic) := by
  decide

theorem witness_IncAndDecStepMemoryByOne :
    ∀ i ∈ ([.incZpX 0xFF#8, .decAbs 0xFFFF#16] : List Instr), i.mnemonic ∈ ([.INC, .DEC] : List Mnemonic) := by
  decide

theorem witness_IndexRegistersStepByOne :
    let s : State := { State.reset with x := 0xFF#8 }
    let nz (v : Byte) : Flags := { s.flags with n := v.msb, z := v == 0#8 }
    ∀ p ∈ ([(.inx, { s with x := 0x00#8, flags := { Flags.clear with z := true } }),
        (.iny, { s with y := 0x01#8, flags := Flags.clear }),
        (.dex, { s with x := 0xFE#8, flags := { Flags.clear with n := true } }),
        (.dey, { s with y := 0xFF#8, flags := { Flags.clear with n := true } })] : List (Instr × State)),
      p ∈ ([(.inx, { s with x := s.x + 1#8, flags := nz (s.x + 1#8) }),
        (.iny, { s with y := s.y + 1#8, flags := nz (s.y + 1#8) }),
        (.dex, { s with x := s.x - 1#8, flags := nz (s.x - 1#8) }),
        (.dey, { s with y := s.y - 1#8, flags := nz (s.y - 1#8) })] : List (Instr × State)) := by
  decide

/-- From the reset state, with the offset at both ends of its range. -/
theorem witness_BranchesTestTheirFlagAndMovePcOnly :
    let s : State := State.reset
    ∀ d ∈ ([-128, 127] : List Int),
      ∀ p ∈ ([(.bcc d, true), (.bcs d, false), (.beq d, false), (.bne d, true), (.bmi d, false), (.bpl d, true),
        (.bvc d, true), (.bvs d, false)] : List (Instr × Bool)),
      p ∈ ([(.bcc d, !s.flags.c), (.bcs d, s.flags.c), (.beq d, s.flags.z), (.bne d, !s.flags.z),
        (.bmi d, s.flags.n), (.bpl d, !s.flags.n), (.bvc d, !s.flags.v), (.bvs d, s.flags.v)] :
          List (Instr × Bool)) := by
  decide

/-- A callee's state, other than the one after the JSR, with the slots at both ends of the stack page. -/
theorem witness_RtsReturnsAfterItsJsr :
    let s : State := { State.reset with sp := 0x00#8 }
    let t : State := (s.push16 (s.nextPc 2)).setPc 0x1234#16
    let u : State := t.setA 0x42#8
    exec (.jsr 0x1234#16) s = .next t ∧ u.a ≠ t.a ∧ u.sp = t.sp ∧
      ∀ b ∈ [stackAddr s.sp, stackAddr (s.sp - 1#8)], u.read b = t.read b :=
  ⟨rfl, by decide, rfl, fun _ _ => rfl⟩

theorem witness_PhaAndPhpPushOneByte :
    let s : State := State.reset
    ∀ p ∈ ([(.pha, 0x00#8), (.php, 0x30#8)] : List (Instr × Byte)),
      p ∈ ([(.pha, s.a), (.php, BitVec.ofNat 8 (128 * s.flags.n.toNat + 64 * s.flags.v.toNat + 32 + 16 +
        8 * s.flags.d.toNat + 4 * s.flags.i.toNat + 2 * s.flags.z.toNat + s.flags.c.toNat))] :
          List (Instr × Byte)) := by
  decide

/-- A handler's state, other than the one after the BRK, with the slots at both ends of the stack page. -/
theorem witness_RtiUndoesBrk :
    let s : State := { State.reset with sp := 0x01#8 }
    let t : State := trapEntry (s.pc + 2#16) s
    let u : State := (t.setX 0x42#8).setFlags { Flags.clear with z := true }
    exec .brk s = .next t ∧ u.flags ≠ t.flags ∧ u.sp = t.sp ∧
      ∀ b ∈ [stackAddr s.sp, stackAddr (s.sp - 1#8), stackAddr (s.sp - 2#8)], u.read b = t.read b :=
  ⟨rfl, by decide, rfl, fun _ _ => rfl⟩

theorem witness_FlagInstructionsWriteOneFlag :
    let s : State := State.reset
    ∀ p ∈ ([(.sec, { Flags.clear with c := true }), (.clc, Flags.clear), (.sed, { Flags.clear with d := true }),
        (.cld, Flags.clear), (.sei, { Flags.clear with i := true }), (.cli, Flags.clear), (.clv, Flags.clear)] :
          List (Instr × Flags)),
      p ∈ ([(.sec, { s.flags with c := true }), (.clc, { s.flags with c := false }),
        (.sed, { s.flags with d := true }), (.cld, { s.flags with d := false }),
        (.sei, { s.flags with i := true }), (.cli, { s.flags with i := false }),
        (.clv, { s.flags with v := false })] : List (Instr × Flags)) := by
  decide

theorem witness_TransfersCopyOneRegister :
    let s : State := State.reset
    let nz (v : Byte) : Flags := { s.flags with n := v.msb, z := v == 0#8 }
    let z : Flags := { Flags.clear with z := true }
    ∀ p ∈ ([(.tax, { s with flags := z }), (.tay, { s with flags := z }), (.txa, { s with flags := z }),
        (.tya, { s with flags := z }), (.tsx, { s with x := 0xFF#8, flags := { Flags.clear with n := true } }),
        (.txs, { s with sp := 0x00#8 })] : List (Instr × State)),
      p ∈ ([(.tax, { s with x := s.a, flags := nz s.a }), (.tay, { s with y := s.a, flags := nz s.a }),
        (.txa, { s with a := s.x, flags := nz s.x }), (.tya, { s with a := s.y, flags := nz s.y }),
        (.tsx, { s with x := s.sp, flags := nz s.sp }), (.txs, { s with sp := s.x })] : List (Instr × State)) := by
  decide

theorem witness_LdaLoadsAWithNZ :
    (Instr.ldaImm 0x80#8).mnemonic = .LDA ∧ (Instr.ldaIndX 0xFF#8).mnemonic = .LDA := by
  decide

theorem witness_LdxAndLdyLoadWithNZ :
    ∀ i ∈ ([.ldxZpY 0xFF#8, .ldyAbsX 0xFFFF#16] : List Instr), i.mnemonic ∈ ([.LDX, .LDY] : List Mnemonic) := by
  decide

theorem witness_StoresWriteTheirRegister (s : State) :
    ((Instr.staAbsX 0xFFFF#16).mnemonic, s.a) ∈ ([(.STA, s.a), (.STX, s.x), (.STY, s.y)] : List (Mnemonic × Byte)) ∧
    ((Instr.stxZpY 0xFF#8).mnemonic, s.x) ∈ ([(.STA, s.a), (.STX, s.x), (.STY, s.y)] : List (Mnemonic × Byte)) ∧
    ((Instr.styZpX 0xFF#8).mnemonic, s.y) ∈ ([(.STA, s.a), (.STX, s.x), (.STY, s.y)] : List (Mnemonic × Byte)) := by
  simp [Instr.mnemonic]

/-- For each of the nine mnemonics, at the last byte of memory. -/
theorem witness_StoringInstructionsChangeOneByte :
    (∀ i ∈ ([.staAbs 0xFFFF#16, .stxAbs 0xFFFF#16, .styAbs 0xFFFF#16, .incAbs 0xFFFF#16, .decAbs 0xFFFF#16,
        .aslAbs 0xFFFF#16, .lsrAbs 0xFFFF#16, .rolAbs 0xFFFF#16, .rorAbs 0xFFFF#16] : List Instr),
      i.mnemonic ∈ ([.STA, .STX, .STY, .INC, .DEC, .ASL, .LSR, .ROL, .ROR] : List Mnemonic) ∧
        resolve i.operand State.reset = some 0xFFFF#16) ∧
    (∃ t, exec (.staAbs 0xFFFF#16) State.reset = .next t) ∧ ∃ t, exec (.rorAbs 0xFFFF#16) State.reset = .next t :=
  ⟨by decide, ⟨_, rfl⟩, _, rfl⟩

/-- For each of the eight mnemonics, with slots on both sides of the wrap. -/
theorem witness_StackInstructionsChangeTheirSlotsOnly :
    let s : State := { State.reset with sp := 0x00#8 }
    (∀ p ∈ ([(.PHA, [0x0100#16], 0xFF#8), (.PHP, [0x0100#16], 0xFF#8), (.JSR, [0x0100#16, 0x01FF#16], 0xFE#8),
        (.BRK, [0x0100#16, 0x01FF#16, 0x01FE#16], 0xFD#8), (.PLA, [], 1#8), (.PLP, [], 1#8), (.RTS, [], 2#8),
        (.RTI, [], 3#8)] : List (Mnemonic × List Addr × Byte)),
      p ∈ ([
        (.PHA, [stackAddr s.sp], 0xFF#8), (.PHP, [stackAddr s.sp], 0xFF#8),
        (.JSR, [stackAddr s.sp, stackAddr (s.sp - 1#8)], 0xFE#8),
        (.BRK, [stackAddr s.sp, stackAddr (s.sp - 1#8), stackAddr (s.sp - 2#8)], 0xFD#8),
        (.PLA, [], 1#8), (.PLP, [], 1#8), (.RTS, [], 2#8), (.RTI, [], 3#8)] : List (Mnemonic × List Addr × Byte))) ∧
    (∃ t, exec .pha s = .next t) ∧ (∃ t, exec .php s = .next t) ∧ (∃ t, exec (.jsr 0x1234#16) s = .next t) ∧
    (∃ t, exec .brk s = .next t) ∧ (∃ t, exec .pla s = .next t) ∧ (∃ t, exec .plp s = .next t) ∧
    (∃ t, exec .rts s = .next t) ∧ ∃ t, exec .rti s = .next t :=
  ⟨by decide, ⟨_, rfl⟩, ⟨_, rfl⟩, ⟨_, rfl⟩, ⟨_, rfl⟩, ⟨_, rfl⟩, ⟨_, rfl⟩, ⟨_, rfl⟩, _, rfl⟩

/-- One instruction that changes each register. -/
theorem witness_RegistersAreWrittenOnlyByTheirInstructions :
    (∃ t, exec (.ldaImm 0x01#8) State.reset = .next t ∧ t.a ≠ State.reset.a) ∧
    (∃ t, exec .rolAcc { State.reset with a := 0x01#8 } = .next t ∧ t.a ≠ 0x01#8) ∧
    (∃ t, exec .dex State.reset = .next t ∧ t.x ≠ State.reset.x) ∧
    (∃ t, exec .dey State.reset = .next t ∧ t.y ≠ State.reset.y) ∧
    ∃ t, exec .txs State.reset = .next t ∧ t.sp ≠ State.reset.sp :=
  ⟨⟨_, rfl, by decide⟩, ⟨_, rfl, by decide⟩, ⟨_, rfl, by decide⟩, ⟨_, rfl, by decide⟩, _, rfl, by decide⟩

/-- One instruction that changes each flag. -/
theorem witness_FlagsAreWrittenOnlyByTheirInstructions :
    (∃ t, exec (.ldaImm 0x80#8) State.reset = .next t ∧ t.flags.n ≠ State.reset.flags.n) ∧
    (∃ t, exec (.ldaImm 0x00#8) State.reset = .next t ∧ t.flags.z ≠ State.reset.flags.z) ∧
    (∃ t, exec (.sbcImm 0x7F#8) { State.reset with a := 0x80#8 } = .next t ∧ t.flags.v ≠ State.reset.flags.v) ∧
    (∃ t, exec .sed State.reset = .next t ∧ t.flags.d ≠ State.reset.flags.d) ∧
    (∃ t, exec .sei State.reset = .next t ∧ t.flags.i ≠ State.reset.flags.i) ∧
    ∃ t, exec .sec State.reset = .next t ∧ t.flags.c ≠ State.reset.flags.c :=
  ⟨⟨_, rfl, by decide⟩, ⟨_, rfl, by decide⟩, ⟨_, rfl, by decide⟩, ⟨_, rfl, by decide⟩, ⟨_, rfl, by decide⟩,
    _, rfl, by decide⟩

/-- With the instruction's bytes on both sides of the top of memory, and with either reading of them. -/
theorem witness_StepRunsTheDecodedInstruction :
    let s : State := before 0xFFFE#16 [0xAD#8, 0x34#8, 0x12#8] []
    s.status = .running ∧ (Instr.ldaAbs 0x1234#16).wf = true ∧
      s.bytesAt s.pc (Instr.ldaAbs 0x1234#16).length = encode (.ldaAbs 0x1234#16) ∧
      ∃ rest, decode (s.bytesAt s.pc 3) = .ok (.ldaAbs 0x1234#16, rest) :=
  ⟨by decide, by decide, by decide, [], rfl⟩

theorem witness_IllegalOpcodesStopTheCoreAndChangeNothingElse :
    (before 0xFFFF#16 [0x02#8] []).status = .running ∧ (before 0xFFFF#16 [0x02#8] []).read 0xFFFF#16 = 0x02#8 ∧
      (before 0xFFFF#16 [0xFF#8] []).read 0xFFFF#16 = 0xFF#8 ∧
      (before 0xFFFF#16 [0xFE#8] []).read 0xFFFF#16 = 0xFE#8 := by
  decide

/-- A tick that changes the status, and a stopped core that is ticked. -/
theorem witness_FaultedIsTheOnlyStopAndIsTerminal :
    (∃ t, step (before 0x0600#16 [0x02#8] []) = .next t ∧ t.status ≠ (before 0x0600#16 [0x02#8] []).status) ∧
    ∃ t, ({ State.reset with status := .faulted 0x02#8 0x0600#16 } : State).status = .faulted 0x02#8 0x0600#16 ∧
      Reaches { State.reset with status := .faulted 0x02#8 0x0600#16 } t :=
  ⟨⟨_, rfl, by decide⟩, _, rfl, .tick .refl rfl⟩

/-- One instruction for each clause, at the top of memory. -/
theorem witness_NextPcIsSequentialUnlessTheExecutorWritesIt :
    let s : State := { State.reset with pc := 0xFFFF#16 }
    (∃ t, exec .nop s = .next t ∧ Instr.nop.mnemonic ∉ ([.BCC, .BCS, .BEQ, .BNE, .BMI, .BPL, .BVC, .BVS, .JMP, .JSR,
      .RTS, .RTI, .BRK] : List Mnemonic)) ∧
    (∃ t, exec (.bcc 127) s = .next t) ∧ (∃ t, exec (.bcs (-128)) s = .next t) ∧ (∃ t, exec (.jmpInd 0xFFFF#16) s = .next t) ∧
    (∃ t, exec (.jsr 0xFFFF#16) s = .next t) ∧ (∃ t, exec .rts s = .next t) ∧ (∃ t, exec .rti s = .next t) ∧
    ∃ t, exec .brk s = .next t :=
  ⟨⟨_, rfl, by decide⟩, ⟨_, rfl⟩, ⟨_, rfl⟩, ⟨_, rfl⟩, ⟨_, rfl⟩, ⟨_, rfl⟩, ⟨_, rfl⟩, _, rfl⟩

theorem witness_DecodeUndoesEncode :
    (Instr.bvs (-128)).wf = true ∧ (Instr.bvs 127).wf = true ∧ (Instr.staIndY 0xFF#8).wf = true ∧
      (Instr.jmpInd 0xFFFF#16).wf = true := by
  decide

theorem witness_EncodeUndoesDecode : decode [0x70#8, 0x80#8, 0x02#8] = .ok (.bvs (-128), [0x02#8]) := rfl

theorem witness_OpcodeBytesAreUnique : (⟨0x00#8, .BRK, .implied, .none .brk⟩ : Row) ∈ opcodeTable :=
  mem_of_dispatchEntry (op := 0x00#8) rfl

theorem witness_LengthIsReadFromTheOpcode :
    decode [0x4C#8, 0x00#8, 0x00#8] = .ok (.jmpAbs 0x0000#16, []) ∧
      decode [0x4C#8, 0xFF#8, 0xFF#8, 0x4C#8] = .ok (.jmpAbs 0xFFFF#16, [0x4C#8]) :=
  ⟨rfl, rfl⟩

theorem witness_StepKeepsMemoryCanonical : ∃ t, Canonical State.reset ∧ step State.reset = .next t := ⟨_, rfl, rfl⟩

theorem witness_ResetAndLoadAreCanonical : Canonical (State.reset.write 0xFFFF#16 0x01#8) := by
  unfold Canonical
  decide

theorem witness_MemoryPortServesEveryTick : ∃ t, step State.reset = .next t := ⟨_, rfl⟩

/-- At the sentinel, stopped, running on, ended within the bound. -/
theorem witness_RunStopsBeforeTheSentinel :
    let s : State := before 0x0600#16 [0xEA#8] []
    State.reset.read State.reset.pc = 0x00#8 ∧ (s.status = .running ∧ s.read s.pc ≠ 0x00#8) ∧
      ({ s with status := .faulted 0x02#8 0x0600#16 } : State).status ≠ .running ∧ (runN 0x00#8 2 s).1 < 2 ∧
      RunEnds 0x00#8 s (runN 0x00#8 2 s).2 :=
  ⟨by decide, by decide, by decide, by decide, 2, rfl, by decide⟩

theorem witness_SnapshotsTellStatesApart : Canonical State.reset ∧ Canonical (State.reset.write 0x0000#16 0x01#8) := by
  unfold Canonical
  decide

theorem witness_AssemblingCanonicalTextRoundTrips :
    (Instr.beq (-128)).wf = true ∧ (Instr.ldaIndY 0xFF#8).wf = true := by
  decide

end Sys2Proof.Tests
end

section
/-! PROOFS. The packed status byte (spec 10_state.md rules R10 and R11): `Flags.pack` is the byte of a list of eight bits,
and its bits, its weights and the two laws of `Flags.unpack` are read off that list. -/

namespace Sys2Proof.Machine

/-- The layout of rule R9, from bit 0 up. -/
theorem Flags.pack_eq_ofBoolListLE (f : Flags) (b : Bool) :
    f.pack b = BitVec.ofBoolListLE [f.c, f.z, f.i, f.d, b, true, f.v, f.n] := by
  apply BitVec.eq_of_getLsbD_eq
  intro k hk
  rw [BitVec.getLsbD_ofBoolListLE]
  interval_cases k <;> simp [Flags.pack]

theorem Flags.getLsbD_pack (f : Flags) (b : Bool) (k : Nat) :
    (f.pack b).getLsbD k = [f.c, f.z, f.i, f.d, b, true, f.v, f.n].getD k false := by
  rw [Flags.pack_eq_ofBoolListLE, BitVec.getLsbD_ofBoolListLE]

theorem Flags.toNat_pack (f : Flags) (b : Bool) :
    (f.pack b).toNat = 128 * f.n.toNat + 64 * f.v.toNat + 32 + 16 * b.toNat + 8 * f.d.toNat + 4 * f.i.toNat +
      2 * f.z.toNat + f.c.toNat := by
  rw [Flags.pack_eq_ofBoolListLE]
  simp only [BitVec.ofBoolListLE, BitVec.toNat_concat, List.length_nil, BitVec.toNat_zero, Bool.toNat_true]
  omega

/-- Unpacking reads each flag at the place where packing put it, whatever bit 4 is (rule R11). -/
@[simp] theorem Flags.unpack_pack (f : Flags) (b : Bool) : Flags.unpack (f.pack b) = f := by
  simp only [Flags.unpack, Flags.getLsbD_pack]
  rfl

/-- Bits 5 and 4 of the byte are lost and come back set; the other six are kept (rule R11). -/
theorem Flags.pack_true_unpack (p : Byte) : (Flags.unpack p).pack true = p ||| 0x30#8 := by
  apply BitVec.eq_of_getLsbD_eq
  intro k hk
  rw [Flags.getLsbD_pack, BitVec.getLsbD_or]
  interval_cases k <;> simp [Flags.unpack]

/-- Settles O8: the list of bits gives the weights of rule R10 and both laws of rule R11. -/
theorem packedStatusHasTheStatedLayout : Obligations.PackedStatusHasTheStatedLayout :=
  ⟨fun f b => ⟨f.toNat_pack b, f.unpack_pack b⟩, fun p => ⟨Flags.pack_true_unpack p, rfl⟩⟩

end Sys2Proof.Machine
end

section
/-! PROOFS. Memory and the stack (spec 20_memory.md rules R23, R24 and R29 to R31): the operand of a fetched instruction
in terms of the reads after PC, and what the four stack primitives do to SP, to memory and to the rest of the state. -/

namespace Sys2Proof.Machine

variable (s : State)

/-! ## Words in memory -/

/-- After its opcode byte, an instruction is encoded as the bytes of its operand (rules R40 and R42). -/
theorem encode_tail (i : Instr) : (encode i).tail = Assembler.operandBytes i.operand := by
  cases i <;> rfl

/-- The operand bytes of a fetched instruction are read after its opcode byte (rule R42). -/
theorem operandBytes_of_fetch {i : Instr} (h : fetch s = .legal i) :
    Assembler.operandBytes i.operand <+: [s.read (s.pc + 1#16), s.read (s.pc + 2#16)] := by
  obtain ⟨r, hr, rfl⟩ := fetch_legal h
  rw [← encode_tail, encode_build r (mem_of_dispatchEntry hr)]
  exact ⟨_, List.take_append_drop _ _⟩

/-- A word whose two bytes, low byte first, are the bytes from `a` up is `Read16` of `a` (rules R23 and R24). -/
theorem State.eq_read16_of_bytes {w a : Addr} (h : [loByte w, hiByte w] <+: [s.read a, s.read (a + 1#16)]) :
    w = s.read16 a := by
  obtain ⟨hlo, hhi⟩ : loByte w = s.read a ∧ hiByte w = s.read (a + 1#16) := by simpa using h
  rw [State.read16, ← hlo, ← hhi, wordOf_loByte_hiByte]

/-- Settles O5: the word clause is the value of `Read16`, and the operand bytes of each of the four operands are the low
and the high byte of its word. -/
theorem wordReadsAreLittleEndianAndWrap : Obligations.WordReadsAreLittleEndianAndWrap := by
  refine ⟨fun s a => ?_, fun s w => rfl, fun s i w hf hw => s.eq_read16_of_bytes ?_⟩
  · rw [State.read16_toNat, BitVec.ofNat_add, BitVec.ofNat_toNat, BitVec.setWidth_eq]
  · have hpc : s.pc + 1#16 + 1#16 = s.pc + 2#16 := by bv_omega
    have hword : Assembler.operandBytes i.operand = [loByte w, hiByte w] := by
      simp only [List.mem_cons, List.not_mem_nil, or_false] at hw
      obtain h | h | h | h := hw <;> rw [h] <;> rfl
    rw [hpc, ← hword]
    exact operandBytes_of_fetch s hf

/-! ## The stack -/

/-- A push changes memory and SP alone (rule R29). -/
theorem State.push_eq (v : Byte) : s.push v = { s with mem := (s.push v).mem, sp := s.sp - 1#8 } := rfl

theorem State.read_push16_hi (w : Addr) : (s.push16 w).read (stackAddr s.sp) = hiByte w := by
  have h : s.sp ≠ s.sp - 1#8 := by bv_omega
  simp [State.read_push16, h]

theorem State.read_push16_lo (w : Addr) : (s.push16 w).read (stackAddr (s.sp - 1#8)) = loByte w := by
  simp [State.read_push16]

theorem State.pop16_toNat :
    s.pop16.1.toNat = (s.read (stackAddr (s.sp + 1#8))).toNat + 256 * (s.read (stackAddr (s.sp + 2#8))).toNat := by
  rw [State.pop16_value, wordOf_toNat]

/-- Popping a pushed word gives the word back (rule R31). -/
theorem State.pop16_push16 (w : Addr) : (s.push16 w).pop16.1 = w := by
  have hlo : s.sp - 2#8 + 1#8 = s.sp - 1#8 := by bv_omega
  have hhi : s.sp - 2#8 + 2#8 = s.sp := by bv_omega
  rw [State.pop16_value, State.push16_sp, hlo, hhi, State.read_push16_lo, State.read_push16_hi, wordOf_loByte_hiByte]

/-- Popping a pushed word leaves SP where it was (rule R31). -/
theorem State.pop16_push16_sp (w : Addr) : (s.push16 w).pop16.2.sp = s.sp := by
  rw [State.pop16_sp, State.push16_sp, BitVec.sub_add_cancel]

/-- Settles O7: one lemma per primitive and field, `stackAddr p` being the address `0x0100 + p` of rule R7. -/
theorem stackPrimitivesWriteReadAndWrap : Obligations.StackPrimitivesWriteReadAndWrap := fun s =>
  ⟨fun v => ⟨s.push_sp v, s.read_push v, s.push_eq v⟩, rfl, fun w =>
    ⟨s.read_push16_hi w, s.read_push16_lo w, s.push16_sp w, s.pop16_toNat, s.pop16_push16 w, s.pop16_push16_sp w⟩⟩

end Sys2Proof.Machine
end

section
/-! PROOFS. The instruction table (spec 30_encoding.md rules R41 to R45) and the effective addresses as numbers
(40_cycle_and_addressing.md rules R64 to R70 and R72): what each row of the table builds, that rows differ in their opcode
bytes and in their mnemonics and modes, and what is decoded and fetched in terms of a row. -/

namespace Sys2Proof.Machine

/-! ## What a row builds -/

/-- The operand that a mode makes of the two bytes after the opcode (rule R42). -/
def operandOf (m : Mode) (b1 b2 : Byte) : Operand :=
  match m with
  | .implied => .implied
  | .accumulator => .accumulator
  | .immediate => .immediate b1
  | .zeroPage => .zeroPage b1
  | .zeroPageX => .zeroPageX b1
  | .zeroPageY => .zeroPageY b1
  | .absolute => .absolute (wordOf b1 b2)
  | .absoluteX => .absoluteX (wordOf b1 b2)
  | .absoluteY => .absoluteY (wordOf b1 b2)
  | .indirect => .indirect (wordOf b1 b2)
  | .indexedIndirect => .indexedIndirect b1
  | .indirectIndexed => .indirectIndexed b1
  | .relative => .relative (offsetOf b1)

@[simp] theorem mode_operandOf (m : Mode) (b1 b2 : Byte) : (operandOf m b1 b2).mode = m := by
  cases m <;> rfl

/-- Each row builds an instruction of its own mnemonic, with the operand that its own mode makes, and its form takes the
operand bytes that its mode has (rules R40 to R42). Block by block, the list of what the rows build is the list of what
they say. -/
theorem build_eq : ∀ r ∈ opcodeTable, ∀ b1 b2 : Byte,
    ((r.form.build b1 b2).mnemonic, (r.form.build b1 b2).operand, r.form.len) =
      (r.mnemonic, operandOf r.mode b1 b2, r.mode.len) := by
  intro r hr b1 b2
  revert r
  simp only [opcodeTable, List.forall_mem_append, and_assoc]
  refine ⟨?_, ?_, ?_, ?_, ?_, ?_, ?_, ?_, ?_, ?_, ?_⟩ <;> exact List.map_inj_left.mp rfl

theorem mnemonic_build {r : Row} (hr : r ∈ opcodeTable) (b1 b2 : Byte) :
    (r.form.build b1 b2).mnemonic = r.mnemonic :=
  congrArg Prod.fst (build_eq r hr b1 b2)

theorem operand_build {r : Row} (hr : r ∈ opcodeTable) (b1 b2 : Byte) :
    (r.form.build b1 b2).operand = operandOf r.mode b1 b2 :=
  congrArg (fun p => p.2.1) (build_eq r hr b1 b2)

/-- Whatever the operand bytes are, the length is that of the row's mode (rule R41). -/
theorem length_build {r : Row} (hr : r ∈ opcodeTable) (b1 b2 : Byte) :
    (r.form.build b1 b2).length = 1 + r.mode.len := by
  rw [Instr.length, operand_build hr, mode_operandOf]

/-- A row's form takes as many operand bytes as its mode has (rules R40 and R41). -/
theorem form_len_eq_mode_len {r : Row} (hr : r ∈ opcodeTable) : r.form.len = r.mode.len :=
  congrArg (fun p => p.2.2) (build_eq r hr 0#8 0#8)

/-! ## Rows differ -/

/-- Whether the numbers of a list are distinct and none is a bit of `seen`, in one pass that collects them in `seen`. -/
def distinctFrom (seen : Nat) (l : List Nat) : Bool :=
  match l with
  | [] => true
  | k :: rest => !seen.testBit k && distinctFrom (seen ||| 1 <<< k) rest

theorem nodup_of_distinctFrom {seen : Nat} {l : List Nat} (h : distinctFrom seen l = true) :
    l.Nodup ∧ ∀ k ∈ l, seen.testBit k = false := by
  induction l generalizing seen with
  | nil => simp
  | cons k rest ih =>
    simp only [distinctFrom, Bool.and_eq_true, Bool.not_eq_true'] at h
    obtain ⟨hk, hrest⟩ := h
    obtain ⟨hnodup, hnew⟩ := ih hrest
    simp only [Nat.testBit_or, Nat.one_shiftLeft, Nat.testBit_two_pow, Bool.or_eq_false_iff,
      decide_eq_false_iff_not] at hnew
    refine ⟨List.nodup_cons.mpr ⟨fun hmem => (hnew k hmem).2 rfl, hnodup⟩, ?_⟩
    exact List.forall_mem_cons.mpr ⟨hk, fun j hj => (hnew j hj).1⟩

/-- Rows differ in what `f` reads of them once the codes `g` gives it are distinct down the table. -/
theorem pairwise_ne_of_distinctFrom {α : Type} (f : Row → α) (g : α → Nat)
    (h : distinctFrom 0 (opcodeTable.map fun r => g (f r)) = true) :
    opcodeTable.Pairwise fun r q => f r ≠ f q :=
  (List.pairwise_map.mp (nodup_of_distinctFrom h).1).imp fun hne heq => hne (congrArg g heq)

theorem opcodes_pairwise_ne : opcodeTable.Pairwise fun r q => r.opcode ≠ q.opcode :=
  pairwise_ne_of_distinctFrom Row.opcode BitVec.toNat (by decide)

/-- A number for a mnemonic and one of the 13 modes. -/
def mnemonicModeCode (p : Mnemonic × Mode) : Nat := 13 * p.1.ctorIdx + p.2.ctorIdx

theorem mnemonicModes_pairwise_ne :
    opcodeTable.Pairwise fun r q => (r.mnemonic, r.mode) ≠ (q.mnemonic, q.mode) :=
  pairwise_ne_of_distinctFrom (fun r => (r.mnemonic, r.mode)) mnemonicModeCode (by decide)

/-- The slot of a row's opcode byte holds that row (rule R43). -/
theorem dispatchEntry_opcode {r : Row} (hr : r ∈ opcodeTable) : dispatchEntry r.opcode = some r := by
  cases hq : dispatchEntry r.opcode with
  | none => exact absurd (beq_self_eq_true r.opcode) (List.find?_eq_none.mp hq r hr)
  | some q =>
    exact congrArg some (List.inj_on_of_nodup_map (List.pairwise_map.mpr opcodes_pairwise_ne)
      (mem_of_dispatchEntry hq) hr (opcode_of_dispatchEntry hq))

theorem mnemonic_mem_opcodeTable (m : Mnemonic) : m ∈ opcodeTable.map Row.mnemonic := by
  cases m <;> decide

theorem length_opcodeTable : opcodeTable.length = 151 := by
  simp only [opcodeTable, List.length_append]
  rfl

/-- Settles O52: the rows differ in both codes, so each is the row of its own opcode byte, and it builds what it says. -/
theorem opcodeBytesAreUnique : Obligations.OpcodeBytesAreUnique := by
  refine ⟨length_opcodeTable, opcodes_pairwise_ne, mnemonicModes_pairwise_ne, fun m => ?_, fun r hr => ?_⟩
  · exact List.mem_map.mp (mnemonic_mem_opcodeTable m)
  · refine ⟨dispatchEntry_opcode hr, fun b1 b2 => ⟨mnemonic_build hr b1 b2, ?_⟩⟩
    rw [operand_build hr, mode_operandOf]

/-! ## Lengths -/

/-- What is decoded is built by the row of the opcode byte from the bytes that its form takes (rules R40 to R43). -/
theorem decode_ok {op : Byte} {xs rest : List Byte} {i : Instr} (h : decode (op :: xs) = .ok (i, rest)) :
    ∃ r b1 b2, dispatchEntry op = some r ∧ r.form.build b1 b2 = i ∧ [b1, b2].take r.form.len ++ rest = xs := by
  unfold decode at h
  cases hr : dispatchEntry op with
  | none => simp [hr] at h
  | some r =>
    refine ⟨r, xs.getD 0 0, xs.getD 1 0, rfl, ?_⟩
    cases hf : r.form with
    | none j =>
      simp only [hr, hf] at h
      cases h
      exact ⟨rfl, rfl⟩
    | byte f | offset f =>
      match xs with
      | [] => simp [hr, hf] at h
      | b1 :: _ =>
        simp only [hr, hf] at h
        cases h
        exact ⟨rfl, rfl⟩
    | word f =>
      match xs with
      | [] | [_] => simp [hr, hf] at h
      | b1 :: b2 :: _ =>
        simp only [hr, hf] at h
        cases h
        exact ⟨rfl, rfl⟩

theorem length_take_form_len (f : Form) (b1 b2 : Byte) : ([b1, b2].take f.len).length = f.len := by
  cases f <;> rfl

/-- Settles O54: two instructions decoded from one opcode byte are built by one row, which fixes their length. -/
theorem lengthIsReadFromTheOpcode : Obligations.LengthIsReadFromTheOpcode := by
  refine ⟨fun op xs ys rx ry i j hi hj => ?_, fun i => ?_⟩
  · obtain ⟨r, b1, b2, hr, rfl, rfl⟩ := decode_ok hi
    obtain ⟨q, c1, c2, hq, rfl, -⟩ := decode_ok hj
    obtain rfl : r = q := Option.some.inj (hr.symm.trans hq)
    have hmem : r ∈ opcodeTable := mem_of_dispatchEntry hr
    refine ⟨by rw [length_build hmem, length_build hmem], ?_⟩
    rw [length_build hmem, List.length_append, length_take_form_len, form_len_eq_mode_len hmem]
    omega
  · rw [Instr.length]
    cases i.operand.mode <;> rfl

/-! ## Operands and effective addresses -/

/-- The signed offset of a byte, by cases on its sign (rule R42). -/
theorem offsetOf_eq (b : Byte) :
    offsetOf b = if b.toNat < 128 then (b.toNat : Int) else (b.toNat : Int) - 256 := by
  rw [offsetOf, BitVec.toInt_eq_toNat_cond]
  split <;> split <;> omega

theorem zeroPageAddr_toNat (z : Byte) : (zeroPageAddr z).toNat = z.toNat :=
  BitVec.toNat_setWidth_of_le (by decide)

theorem toNat_add_setWidth (w : Addr) (b : Byte) : (w + b.setWidth 16).toNat = (w.toNat + b.toNat) % 65536 := by
  rw [BitVec.toNat_add, BitVec.toNat_setWidth_of_le (by decide)]

/-- The operand of a fetched instruction is made of the two bytes after its opcode byte (rule R42). -/
theorem operand_of_fetch {s : State} {i : Instr} (h : fetch s = .legal i) :
    ∃ m, i.operand = operandOf m (s.read (s.pc + 1#16)) (s.read (s.pc + 2#16)) := by
  obtain ⟨r, hr, rfl⟩ := fetch_legal h
  exact ⟨r.mode, operand_build (mem_of_dispatchEntry hr) _ _⟩

/-- Settles O9: the operand is made by a mode of the two bytes after the opcode byte, and each effective address is one
sum, at the width of its mode. -/
theorem effectiveAddressesWrapAtTheirWidth : Obligations.EffectiveAddressesWrapAtTheirWidth := by
  refine ⟨?_, fun s v z w => ⟨?_, ?_, ?_, ?_, rfl, ?_, ?_, ?_⟩, rfl⟩
  · intro s i hf b w
    obtain ⟨m, hm⟩ := operand_of_fetch hf
    have hpc : s.pc + 1#16 + 1#16 = s.pc + 2#16 := by bv_omega
    have hw : wordOf b (s.read (s.pc + 2#16)) = w := by rw [← hpc]; rfl
    rw [hm]
    cases m <;> simp [operandOf, offsetOf_eq, hw, b]
  · exact congrArg some (BitVec.toNat_add s.pc 1#16)
  · exact congrArg some (zeroPageAddr_toNat z)
  · exact congrArg some ((zeroPageAddr_toNat _).trans (BitVec.toNat_add z s.x))
  · exact congrArg some ((zeroPageAddr_toNat _).trans (BitVec.toNat_add z s.y))
  · exact congrArg some (toNat_add_setWidth w s.x)
  · exact congrArg some (toNat_add_setWidth w s.y)
  · exact congrArg some (wordReadsAreLittleEndianAndWrap.1 s w)

end Sys2Proof.Machine
end

section
/-! PROOFS. Where PC ends (spec 40_cycle_and_addressing.md rule R61): one lemma over `Effect` for each way of ending, at
`next`, at a branch's choice of two, at the effective address, or at what the stack or the vector holds. -/

namespace Sys2Proof.Machine

variable {s t : State} {o : Operand} {m : Mnemonic}

/-- An instruction that does not write PC ends at `next`; the forms without operand bytes end one byte on. -/
theorem Effect.pc_eq_next (h : Effect s o m t)
    (hm : m ∉ ([.BCC, .BCS, .BEQ, .BNE, .BMI, .BPL, .BVC, .BVS, .JMP, .JSR, .RTS, .RTI, .BRK] : List Mnemonic)) :
    t.pc = s.pc + BitVec.ofNat 16 (1 + o.mode.len) := by
  cases h with
  | BCC | BCS | BEQ | BNE | BMI | BPL | BVC | BVS | JMP | JSR | RTS | RTI | BRK => exact absurd (by decide) hm
  | ASL_A ho | LSR_A ho | ROL_A ho | ROR_A ho | INX ho | INY ho | DEX ho | DEY ho | PHA ho | PHP ho | PLA ho | PLP ho
  | SEC ho | CLC ho | SED ho | CLD ho | SEI ho | CLI ho | CLV ho | NOP ho | TAX ho | TAY ho | TXA ho | TYA ho | TSX ho
  | TXS ho => subst ho; rfl
  | _ => rfl

/-- The common end of the branches (rule R110): `next`, or the effective address of the relative operand. -/
theorem branch_pc (taken : Bool) (d : Int) :
    let u := s.setPc (if taken then eaRelative d s else s.nextPc 1)
    u.pc = s.pc + BitVec.ofNat 16 (1 + (Operand.relative d).mode.len) ∨ resolve (.relative d) s = some u.pc := by
  cases taken with
  | false => exact .inl rfl
  | true => exact .inr rfl

theorem Effect.pc_of_branch (h : Effect s o m t)
    (hm : m ∈ ([.BCC, .BCS, .BEQ, .BNE, .BMI, .BPL, .BVC, .BVS] : List Mnemonic)) :
    t.pc = s.pc + BitVec.ofNat 16 (1 + o.mode.len) ∨ resolve o s = some t.pc := by
  cases h with
  | BCC d ho | BCS d ho | BEQ d ho | BNE d ho | BMI d ho | BPL d ho | BVC d ho | BVS d ho => subst ho; exact branch_pc _ d
  | _ => exact absurd hm (by decide)

/-- JMP and JSR end at the effective address of their operand (rules R119 and R120). -/
theorem Effect.pc_of_jump (h : Effect s o m t) (hm : m ∈ ([.JMP, .JSR] : List Mnemonic)) :
    resolve o s = some t.pc := by
  cases h with
  | JMP ea hea | JSR ea hea => exact hea
  | _ => exact absurd hm (by decide)

theorem Effect.pc_of_RTS (h : Effect s o .RTS t) : t.pc = s.pop16.1 := by
  cases h with
  | RTS => rfl

/-- RTI pops PC after the flags, and setting the flags moves no byte of the stack (rule R130). -/
theorem Effect.pc_of_RTI (h : Effect s o .RTI t) : t.pc = s.pop.2.pop16.1 := by
  cases h with
  | RTI => rfl

/-- BRK ends at the vector of the state before its pushes, which do not reach it (rule R129). -/
theorem Effect.pc_of_BRK (h : Effect s o .BRK t) : t.pc = s.read16 0xFFFE#16 := by
  cases h with
  | BRK => rw [trapEntry_eq, Config.breakVector]

/-- Settles O49: each clause is the lemma for its way of ending, applied to the effect of the instruction. -/
theorem nextPcIsSequentialUnlessTheExecutorWritesIt : Obligations.NextPcIsSequentialUnlessTheExecutorWritesIt := by
  intro i s t h
  have he : Effect s i.operand i.mnemonic t := effect_of_exec h
  exact ⟨he.pc_eq_next, he.pc_of_branch, he.pc_of_jump, fun hm => (hm ▸ he).pc_of_RTS, fun hm => (hm ▸ he).pc_of_RTI,
    fun hm => (hm ▸ he).pc_of_BRK⟩

end Sys2Proof.Machine
end

section
/-! PROOFS. The overflow of ADC (spec 41_arithmetic_compare.md rules R80 and R86): the sign rule for its V flag and the
range of the signed sum are the same condition. -/

namespace Sys2Proof.Machine

/-- V as a condition on the signs of the operands and the result (rule R80). -/
theorem addWithCarry_overflow (a m : Byte) (c : Bool) :
    (addWithCarry a m c).overflow =
      decide (a.msb = m.msb ∧ (addWithCarry a m c).value.msb ≠ a.msb) :=
  overflow_of_sum a m _

/-- The sign rule for V finds the signed sums that a byte cannot hold, with either carry in (rule R86): for each pair
of operand signs, both sides are the same range of the exact sum. -/
theorem addWithCarry_overflow_iff (a m : Byte) (c : Bool) :
    (addWithCarry a m c).overflow = true ↔
      a.toInt + m.toInt + (c.toNat : Int) < -128 ∨ 127 < a.toInt + m.toInt + (c.toNat : Int) := by
  have ha := a.isLt
  have hm := m.isLt
  have hc := c.toNat_le
  have hr : (addWithCarry a m c).value.toNat = (a.toNat + m.toNat + c.toNat) % 256 := BitVec.toNat_ofNat _ 8
  rw [addWithCarry_overflow, decide_eq_true_iff, BitVec.toInt_eq_toNat_cond, BitVec.toInt_eq_toNat_cond]
  simp only [BitVec.msb_eq_decide, hr, ne_eq, decide_eq_decide]
  split <;> split <;> omega

/-- Settles O13: the flags are those of `addWithCarry`, whose C and bit formula are its definition. -/
theorem adcFlagsSayUnsignedAndSignedOverflow : Obligations.AdcFlagsSayUnsignedAndSignedOverflow := by
  intro i s m hi hm
  obtain ⟨m', hm', he⟩ := exec_ADC hi s
  obtain rfl : m = m' := Option.some.inj (hm.symm.trans hm')
  exact ⟨_, he.trans (retire_next _ _), decide_eq_true_iff, bne_iff_ne, addWithCarry_overflow_iff s.a m s.flags.c⟩

end Sys2Proof.Machine
end

section
/-! PROOFS. BIT (spec 42_shift_logic_incdec.md rule R98): three flags of the state and nothing else. -/

namespace Sys2Proof.Machine

/-- BIT writes N, V and Z and nothing else; N and V are bits of the operand, not of the conjunction (rule R98). -/
theorem bitTest_eq (m : Byte) (s : State) :
    bitTest m s =
      { s with flags := { s.flags with n := m.getLsbD 7, v := m.getLsbD 6, z := decide (s.a &&& m = 0#8) } } := by
  rw [bitTest, State.setFlags_eq, Flags.afterBit_eq, beq_eq_decide]

/-- Settles O20: BIT takes its operand byte, tests it, and goes on to the next instruction, in both its forms. -/
theorem bitCopiesTwoBitsAndTestsTheRest : Obligations.BitCopiesTwoBitsAndTestsTheRest := by
  intro i s hi
  obtain ⟨m, hm, he⟩ := exec_BIT hi s
  refine ⟨m, hm, ?_⟩
  rw [he, retire_next, bitTest_eq, State.setPc_eq, Instr.length]

end Sys2Proof.Machine
end

section
/-! PROOFS. No instruction faults (spec 60_exceptions.md rule R163): `exec` answers a next state for every instruction, and
the operations its effects are made of set registers, flags, memory and PC, never the status. -/

namespace Sys2Proof.Machine

/-- No instruction touches the fault status, BRK and RTI included: only the illegal-opcode fault of the fetch sets it. -/
theorem Effect.status_eq {s t : State} {o : Operand} {m : Mnemonic} (h : Effect s o m t) : t.status = s.status := by
  cases h <;> rfl

/-- Settles O48: the next state that `exec_effect` gives has the status of the state before it. -/
theorem noExecutingInstructionFaults : Obligations.NoExecutingInstructionFaults := by
  intro i s
  obtain ⟨t, hexec, heffect⟩ := exec_effect i s
  exact ⟨t, hexec, heffect.status_eq⟩

end Sys2Proof.Machine
end

section
/-! PROOFS. Loading bytes (spec 70_reset_and_hazards.md rule R177): what a read gives inside the loaded range and outside
of it, on memory and by induction over the bytes, and from there for the state. -/

namespace Sys2Proof.Machine

/-- Addresses below and above the range of a load keep their bytes. -/
theorem Memory.read_load_of_outside (m : Memory) {j k : Nat} {bytes : List Byte}
    (h : j < k ∨ k + bytes.length ≤ j) : (m.load k bytes).read j = m.read j := by
  induction bytes generalizing m k with
  | nil => rfl
  | cons b rest ih =>
    rw [List.length_cons] at h
    rw [Memory.load, ih _ (by omega)]
    split
    · exact Memory.read_write_other m (by omega) b
    · rfl

/-- A byte that fits below the ceiling is stored: once its turn has come, the rest of the load leaves it alone. -/
theorem Memory.read_load_of_getElem? (m : Memory) {k i : Nat} {bytes : List Byte} {b : Byte}
    (hb : bytes[i]? = some b) (hfit : k + i ≤ 0xFFFF) : (m.load k bytes).read (k + i) = b := by
  induction bytes generalizing m k i with
  | nil => simp at hb
  | cons c rest ih =>
    rw [Memory.load]
    cases i with
    | zero =>
      obtain rfl : c = b := by simpa using hb
      rw [Nat.add_zero k] at hfit ⊢
      rw [if_pos hfit, Memory.read_load_of_outside _ (by omega), Memory.read_write_self]
    | succ i =>
      rw [List.getElem?_cons_succ] at hb
      rw [Nat.add_comm i 1, ← Nat.add_assoc]
      exact ih _ hb (by omega)

/-- A read after a load is a read of the loaded memory, at the address as a number. -/
theorem State.read_load (s : State) (bytes : List Byte) (at_ b : Addr) :
    (s.load bytes at_).read b = (s.mem.load at_.toNat bytes).read b.toNat := rfl

/-- Settles O3: an address that fits below the ceiling is its own 16-bit number, so both clauses on reads are those of
`Memory.load`; a load sets memory alone. -/
theorem loadStoresBytesAndTruncatesAtTheCeiling : Obligations.LoadStoresBytesAndTruncatesAtTheCeiling := by
  refine fun s bytes at_ => ⟨fun k b hb hfit => ?_, fun b hout => ?_, rfl⟩
  · rw [State.read_load, BitVec.toNat_ofNat, Nat.mod_eq_of_lt (Nat.lt_succ_of_le hfit)]
    exact Memory.read_load_of_getElem? s.mem hb hfit
  · rw [State.read_load]
    exact Memory.read_load_of_outside s.mem hout

end Sys2Proof.Machine
end

section
/-! PROOFS. The fields of the state after the trap is entered (spec 44_stack_system.md rule R129, decision D5), read off
`trapEntry_eq` once. -/

namespace Sys2Proof.Machine

variable (ra : Addr) (s : State)

@[simp] theorem trapEntry_a : (trapEntry ra s).a = s.a := by rw [trapEntry_eq]
@[simp] theorem trapEntry_x : (trapEntry ra s).x = s.x := by rw [trapEntry_eq]
@[simp] theorem trapEntry_y : (trapEntry ra s).y = s.y := by rw [trapEntry_eq]
@[simp] theorem trapEntry_sp : (trapEntry ra s).sp = s.sp - 3#8 := by rw [trapEntry_eq]
@[simp] theorem trapEntry_pc : (trapEntry ra s).pc = s.read16 Config.breakVector := by rw [trapEntry_eq]
@[simp] theorem trapEntry_flags : (trapEntry ra s).flags = s.flags := by rw [trapEntry_eq]
@[simp] theorem trapEntry_mem : (trapEntry ra s).mem = ((s.push16 ra).push (s.flags.pack true)).mem := by
  rw [trapEntry_eq]

/-- The three bytes that the trap stores, and what it leaves alone. -/
theorem read_trapEntry (b : Addr) :
    (trapEntry ra s).read b =
      if b = stackAddr (s.sp - 2#8) then s.flags.pack true
      else if b = stackAddr (s.sp - 1#8) then loByte ra
      else if b = stackAddr s.sp then hiByte ra else s.read b := by
  have h : (trapEntry ra s).read b = ((s.push16 ra).push (s.flags.pack true)).read b := by
    rw [State.read, trapEntry_mem, State.read]
  rw [h, State.read_push, State.push16_sp, State.read_push16]

end Sys2Proof.Machine
end

section
/-! PROOFS. Decoding and encoding undo each other (spec 30_encoding.md rules R40 to R46; the table is decision D2):
every well-formed instruction is what the row of its opcode byte builds from its operand bytes, and what a row builds
is well formed. From there a tick of a running core is the instruction that the bytes at PC encode
(40_cycle_and_addressing.md rule R60). -/

namespace Sys2Proof.Machine

/-! ## Well-formedness -/

/-- Only a branch's offset can be out of range (rule R49; log entry 22). -/
theorem wf_of_relative {i : Instr} (h : ∀ d, i.operand = .relative d → offsetInRange d = true) : i.wf = true := by
  cases i with
  | bcc d | bcs d | beq d | bne d | bmi d | bpl d | bvc d | bvs d => exact h d rfl
  | _ => rfl

/-- The one mode with an offset reads it from a byte, so the offset is in range. -/
theorem wf_build {r : Row} (hr : r ∈ opcodeTable) (b1 b2 : Byte) : (r.form.build b1 b2).wf = true := by
  refine wf_of_relative fun d hd => ?_
  rw [operand_build hr] at hd
  cases hm : r.mode <;> rw [hm] at hd <;> cases hd
  exact offsetInRange_offsetOf b1

/-! ## Decoding what was encoded -/

/-- A well-formed instruction is built by its row, the table standing in the order of `Instr`, from its own operand
bytes: as they stand, or joined to a word, or read as an offset. -/
theorem build_encode {i : Instr} (h : i.wf = true) :
    ∃ r, opcodeTable[i.ctorIdx]? = some r ∧
      r.form.build ((encode i).getD 1 0) ((encode i).getD 2 0) = i := by
  cases i with
  | bcc d | bcs d | beq d | bne d | bmi d | bpl d | bvc d | bvs d => exact ⟨_, rfl, congrArg _ (offsetOf_offsetByte h)⟩
  | adcAbs w | adcAbsX w | adcAbsY w | sbcAbs w | sbcAbsX w | sbcAbsY w | cmpAbs w | cmpAbsX w | cmpAbsY w | cpxAbs w
  | cpyAbs w | aslAbs w | aslAbsX w | lsrAbs w | lsrAbsX w | rolAbs w | rolAbsX w | rorAbs w | rorAbsX w | bitAbs w
  | andAbs w | andAbsX w | andAbsY w | oraAbs w | oraAbsX w | oraAbsY w | eorAbs w | eorAbsX w | eorAbsY w | incAbs w
  | incAbsX w | decAbs w | decAbsX w | jmpAbs w | jmpInd w | jsr w | ldaAbs w | ldaAbsX w | ldaAbsY w | ldxAbs w
  | ldxAbsY w | ldyAbs w | ldyAbsX w | staAbs w | staAbsX w | staAbsY w | stxAbs w | styAbs w =>
    exact ⟨_, rfl, congrArg _ (wordOf_loByte_hiByte w)⟩
  | _ => exact ⟨_, rfl, rfl⟩

/-- A well-formed instruction is what a row of the table builds from two bytes. -/
theorem exists_row_build {i : Instr} (h : i.wf = true) : ∃ r ∈ opcodeTable, ∃ b1 b2, r.form.build b1 b2 = i := by
  obtain ⟨r, hr, hbuild⟩ := build_encode h
  exact ⟨r, List.mem_of_getElem? hr, _, _, hbuild⟩

/-- The decoder reads a row's opcode byte and the operand bytes that the row's form takes, and no more (rules R41 to
R43). -/
theorem decode_opcode {r : Row} (hr : r ∈ opcodeTable) (b1 b2 : Byte) (rest : List Byte) :
    decode (r.opcode :: ([b1, b2].take r.form.len ++ rest)) = .ok (r.form.build b1 b2, rest) := by
  cases hf : r.form <;> simp [decode, dispatchEntry_opcode hr, hf, Form.build, Form.len]

/-- Settles O50: the instruction is built by a row, and the row's words are decoded to what it builds. -/
theorem decodeUndoesEncode : Obligations.DecodeUndoesEncode := by
  intro i rest h
  obtain ⟨r, hr, b1, b2, rfl⟩ := exists_row_build h
  rw [encode_build r hr, List.cons_append, decode_opcode hr]

/-- Settles O51: what is decoded is built by the row of the opcode byte from the bytes taken, and these are the words
that the encoder gives it. -/
theorem encodeUndoesDecode : Obligations.EncodeUndoesDecode := by
  intro bytes rest i h
  cases bytes with
  | nil => cases h
  | cons op xs =>
    obtain ⟨r, b1, b2, hr, rfl, rfl⟩ := decode_ok h
    have hmem : r ∈ opcodeTable := mem_of_dispatchEntry hr
    refine ⟨wf_build hmem b1 b2, ?_⟩
    rw [encode_build r hmem, opcode_of_dispatchEntry hr, List.cons_append]

/-! ## The instruction at PC -/

theorem State.take_bytesAt (s : State) (a : Addr) {n k : Nat} (h : n ≤ k) :
    (s.bytesAt a k).take n = s.bytesAt a n := by
  induction n generalizing a k with
  | zero => rfl
  | succ n ih =>
    obtain ⟨k, rfl⟩ := Nat.exists_eq_add_one_of_ne_zero (Nat.ne_zero_of_lt h)
    rw [State.bytesAt, State.bytesAt, List.take_succ_cons, ih _ (Nat.le_of_succ_le_succ h)]

theorem length_le_three (i : Instr) : i.length ≤ 3 := by
  rw [Instr.length]
  cases i.operand.mode <;> decide

/-- Where the words of a well-formed instruction stand, the decoder reads it, whatever stands after them. -/
theorem decode_of_bytesAt {s : State} {i : Instr} {a : Addr} (hwf : i.wf = true)
    (h : s.bytesAt a i.length = encode i) : ∃ rest, decode (s.bytesAt a 3) = .ok (i, rest) := by
  refine ⟨(s.bytesAt a 3).drop i.length, ?_⟩
  rw [← decodeUndoesEncode i _ hwf, ← h, ← s.take_bytesAt a (length_le_three i), List.take_append_drop]

/-- Settles O45: the words of the instruction at PC are decoded to it, and so it is what the fetch finds. -/
theorem stepRunsTheDecodedInstruction : Obligations.StepRunsTheDecodedInstruction := by
  intro s i hrun hwf hbytes
  obtain ⟨rest, hdecode⟩ : ∃ rest, decode (s.bytesAt s.pc 3) = .ok (i, rest) := hbytes.elim (decode_of_bytesAt hwf) id
  have hpc : s.pc + 1#16 + 1#16 = s.pc + 2#16 := by bv_omega
  rw [State.bytesAt, State.bytesAt, State.bytesAt, hpc] at hdecode
  simp [step, hrun, fetch_legal_of_decode hdecode]

/-- Settles O53: the decoder is run on each of the twelve lists of bytes. -/
theorem writtenOutWordsDecode : Obligations.WrittenOutWordsDecode :=
  ⟨rfl, rfl, rfl, rfl, rfl, rfl, rfl, rfl, rfl, rfl, rfl, rfl⟩

end Sys2Proof.Machine
end

section
/-! PROOFS. The illegal opcode bytes (spec 30_encoding.md rule R46, 60_exceptions.md rules R161 and R162; decision
D11): which slots of the dispatch table are empty, and that nothing but an empty slot stops the core, for good. -/

namespace Sys2Proof.Machine

/-! ## The empty slots of the dispatch table -/

/-- A set of bytes as a number: bit `b` says that the byte `b` is in the list. -/
def byteSet (l : List Byte) : Nat :=
  match l with
  | [] => 0
  | b :: rest => byteSet rest ||| 1 <<< b.toNat

theorem testBit_byteSet (l : List Byte) (b : Byte) : (byteSet l).testBit b.toNat = decide (b ∈ l) := by
  induction l with
  | nil => simp [byteSet]
  | cons c rest ih =>
    simp [byteSet, ih, Nat.one_shiftLeft, Nat.testBit_two_pow, BitVec.toNat_inj, Bool.or_comm, eq_comm]

theorem byteSet_append (l l' : List Byte) : byteSet (l ++ l') = byteSet l ||| byteSet l' := by
  induction l with
  | nil => simp [byteSet]
  | cons b rest ih => rw [List.cons_append, byteSet, byteSet, ih, Nat.or_right_comm]

/-- Where the numbers of two lists are complements in the 256 bits, so are the lists. -/
theorem mem_iff_not_mem_of_byteSet {l l' : List Byte} (h : byteSet l = byteSet l' ^^^ (2 ^ 256 - 1)) (b : Byte) :
    b ∈ l ↔ b ∉ l' := by
  have hb : (byteSet l).testBit b.toNat = (byteSet l' ^^^ (2 ^ 256 - 1)).testBit b.toNat := by rw [h]
  have hlt : b.toNat < 256 := b.isLt
  rw [Nat.testBit_xor, Nat.testBit_two_pow_sub_one, testBit_byteSet, testBit_byteSet, decide_eq_true hlt,
    Bool.xor_true, ← decide_not, decide_eq_decide] at hb
  exact hb

theorem dispatchEntry_eq_none_iff {op : Byte} : dispatchEntry op = none ↔ op ∉ opcodeTable.map Row.opcode := by
  simp [dispatchEntry]

/-- Settles O46: the 105 bytes are the complement of the table's opcode bytes, so they are those with an empty slot;
the fetch finds an illegal byte in an empty slot, and the row's instruction in any other. -/
theorem illegalOpcodesStopTheCoreAndChangeNothingElse :
    Obligations.IllegalOpcodesStopTheCoreAndChangeNothingElse := by
  unfold Obligations.IllegalOpcodesStopTheCoreAndChangeNothingElse
  intro illegal
  have hcomplement : byteSet illegal = byteSet (opcodeTable.map Row.opcode) ^^^ (2 ^ 256 - 1) := by
    simp only [illegal, opcodeTable, List.map_append, byteSet_append]
    decide
  have hslots (op : Byte) : op ∈ illegal ↔ dispatchEntry op = none :=
    (mem_iff_not_mem_of_byteSet hcomplement op).trans dispatchEntry_eq_none_iff.symm
  refine ⟨rfl, fun s => ⟨fun hrun hop => ?_, fun hop => ?_⟩⟩
  · have hfetch : fetch s = .illegal (s.read s.pc) := fetch_illegal_iff.mpr ⟨rfl, (hslots _).mp hop⟩
    simp [step, hrun, hfetch, raiseIllegalOpcode_eq]
  · cases hfetch : fetch s with
    | illegal op =>
      obtain ⟨rfl, hnone⟩ := fetch_illegal_iff.mp hfetch
      exact absurd ((hslots _).mpr hnone) hop
    | legal i => exact ⟨i, rfl⟩

/-! ## The only stop -/

/-- Settles O47: of the three cases of a step only the illegal byte changes the status; a stopped core stays as it is,
along any run of ticks by induction; a load sets memory alone. -/
theorem faultedIsTheOnlyStopAndIsTerminal : Obligations.FaultedIsTheOnlyStopAndIsTerminal := by
  refine ⟨fun s => ?_, fun s t hstep hne => ?_, fun s t op at_ hs h => ?_, fun s bytes at_ => rfl⟩
  · obtain ⟨_, _, _, h⟩ | ⟨_, _, _, h⟩ | ⟨i, _, _, h⟩ := step_cases s
    · exact ⟨_, h⟩
    · exact ⟨_, h⟩
    · obtain ⟨t, hexec, -⟩ := exec_effect i s
      exact ⟨t, h.trans hexec⟩
  · obtain ⟨_, _, _, h⟩ | ⟨op, hrun, hfetch, h⟩ | ⟨i, _, _, h⟩ := step_cases s
    · cases h.symm.trans hstep
      exact absurd rfl hne
    · cases h.symm.trans hstep
      exact ⟨op, hrun, hfetch, rfl⟩
    · exact absurd (effect_of_exec (h.symm.trans hstep)).status_eq hne
  · induction h with
    | refl => rfl
    | tick _ hstep ih =>
      subst ih
      simp only [step, hs] at hstep
      cases hstep
      rfl

end Sys2Proof.Machine
end

section
/-! PROOFS. The canonical form of memory (spec 10_state.md rules R12 to R15; log entry 21): it holds after reset,
after construction and under `load`, every step keeps it, and it makes equal memories equal data
(70_reset_and_hazards.md rules R175 to R180). -/

namespace Sys2Proof.Machine

/-! ## Steps and loads -/

/-- Memory changes by single writes and by pushes, and both keep the canonical form. -/
theorem Effect.wf_mem {s t : State} {o : Operand} {m : Mnemonic} (h : Effect s o m t) (hs : s.mem.wf = true) :
    t.mem.wf = true := by
  cases h with
  | ASL | LSR | ROL | ROR | INC | DEC | STA | STX | STY => exact s.wf_write hs _ _
  | PHA | PHP => exact s.wf_push hs _
  | JSR => exact s.wf_push16 hs _
  | BRK =>
    rw [trapEntry_mem]
    exact State.wf_push _ (s.wf_push16 hs _) _
  | _ => exact hs

/-- Settles O55: a step that executes has an effect, which keeps the form; the other two cases of a step leave memory
alone. -/
theorem stepKeepsMemoryCanonical : Obligations.StepKeepsMemoryCanonical := by
  intro s t hs hstep
  obtain ⟨_, _, _, h⟩ | ⟨_, _, _, h⟩ | ⟨i, _, _, h⟩ := step_cases s
  · cases h.symm.trans hstep
    exact hs
  · cases h.symm.trans hstep
    exact hs
  · exact (effect_of_exec (h.symm.trans hstep)).wf_mem hs

/-- A load is a row of writes inside memory; what it drops it does not write (rule R177). -/
theorem Memory.wf_load {m : Memory} (hm : m.wf = true) (k : Nat) (bytes : List Byte) : (m.load k bytes).wf = true := by
  induction bytes generalizing m k with
  | nil => exact hm
  | cons b rest ih =>
    rw [Memory.load]
    split
    next hk => exact ih (Memory.wf_write hm (Nat.lt_succ_of_le hk) b) _
    next => exact ih hm _

/-- Settles O56: the reset memory is the empty list, and a load keeps the form. -/
theorem resetAndLoadAreCanonical : Obligations.ResetAndLoadAreCanonical :=
  ⟨rfl, fun _ bytes at_ h => Memory.wf_load h at_.toNat bytes⟩

/-! ## Construction -/

/-- The cells from `lo` up whose byte differs from the first value, `n` addresses of them: `Memory.ofBytes` before it
is cut to the size of memory. -/
def Memory.cellsFrom (f : Addr → Byte) (lo n : Nat) : Memory :=
  (List.range' lo n).filterMap (fun k =>
    if f (BitVec.ofNat 16 k) = Config.memInit k then none else some (k, f (BitVec.ofNat 16 k)))

theorem Memory.ofBytes_eq (f : Addr → Byte) : Memory.ofBytes f = Memory.cellsFrom f 0 Config.memSize := by
  rw [Memory.ofBytes, Memory.cellsFrom, List.range_eq_range']

theorem Memory.cellsFrom_succ (f : Addr → Byte) (lo n : Nat) :
    Memory.cellsFrom f lo (n + 1) =
      if f (BitVec.ofNat 16 lo) = Config.memInit lo then Memory.cellsFrom f (lo + 1) n
      else (lo, f (BitVec.ofNat 16 lo)) :: Memory.cellsFrom f (lo + 1) n := by
  rw [Memory.cellsFrom, List.range'_succ, List.filterMap_cons]
  split_ifs <;> rfl

theorem Memory.wfFrom_cellsFrom (f : Addr → Byte) {lo n : Nat} (h : lo + n ≤ Config.memSize) :
    Memory.wfFrom lo (Memory.cellsFrom f lo n) = true := by
  induction n generalizing lo with
  | zero => rfl
  | succ n ih =>
    have hrest : Memory.wfFrom (lo + 1) (Memory.cellsFrom f (lo + 1) n) = true := ih (by omega)
    rw [Memory.cellsFrom_succ]
    split
    next => exact Memory.wfFrom_mono (Nat.le_succ lo) hrest
    next hne => exact Memory.wfFrom_cons.mpr ⟨Nat.le_refl lo, by omega, hne, hrest⟩

theorem Memory.read_cellsFrom (f : Addr → Byte) {lo n k : Nat} (h : lo + n ≤ Config.memSize) (hlo : lo ≤ k)
    (hk : k < lo + n) : (Memory.cellsFrom f lo n).read k = f (BitVec.ofNat 16 k) := by
  induction n generalizing lo with
  | zero => omega
  | succ n ih =>
    rw [Memory.cellsFrom_succ]
    by_cases hklo : k = lo
    · subst hklo
      split
      next hinit => rw [Memory.read_of_lt (Memory.wfFrom_cellsFrom f (by omega)) (Nat.lt_succ_self k), hinit]
      next => rw [Memory.read, if_pos rfl]
    · have hrest : (Memory.cellsFrom f (lo + 1) n).read k = f (BitVec.ofNat 16 k) := ih (by omega) (by omega) (by omega)
      split
      next => exact hrest
      next => rw [Memory.read, if_neg (Ne.symm hklo), hrest]

theorem Memory.wf_ofBytes (f : Addr → Byte) : (Memory.ofBytes f).wf = true := by
  rw [Memory.ofBytes_eq]
  exact Memory.wfFrom_cellsFrom f (Nat.le_of_eq (Nat.zero_add _))

theorem Memory.read_ofBytes (f : Addr → Byte) (a : Addr) : (Memory.ofBytes f).read a.toNat = f a := by
  rw [Memory.ofBytes_eq, Memory.read_cellsFrom f (Nat.le_of_eq (Nat.zero_add _)) (Nat.zero_le _) (by
    rw [Nat.zero_add]; exact a.isLt), BitVec.ofNat_toNat, BitVec.setWidth_eq]

/-- Canonical memories that read alike are the same list. -/
theorem Memory.ext_of_wf {m m' : Memory} (hm : m.wf = true) (hm' : m'.wf = true)
    (h : ∀ a : Addr, m.read a.toNat = m'.read a.toNat) : m = m' := by
  refine Memory.ext_of_wfFrom hm hm' fun k hk => ?_
  have hread := h (BitVec.ofNat 16 k)
  rwa [BitVec.toNat_ofNat, Nat.mod_eq_of_lt (show k < 2 ^ 16 from hk)] at hread

theorem construct_mem (p : Params) : (construct p).mem = Memory.ofBytes p.memInit := by rw [construct]

/-- Settles O2: the registers are the parameters and constants as they stand; the list of cells is in canonical form
and reads as the parameter says, so with the default parameter it is the empty list. -/
theorem constructionSetsEveryPieceOfState : Obligations.ConstructionSetsEveryPieceOfState := by
  refine ⟨fun p => ⟨rfl, rfl, rfl, rfl, rfl, rfl, rfl, fun b => ?_, ?_⟩, ?_⟩
  · rw [State.read, construct_mem, Memory.read_ofBytes]
  · rw [Canonical, construct_mem]
    exact Memory.wf_ofBytes p.memInit
  · have hmem : Memory.ofBytes Params.default.memInit = [] :=
      Memory.ext_of_wf (Memory.wf_ofBytes _) rfl (Memory.read_ofBytes _)
    rw [construct, hmem]
    rfl

/-! ## Snapshots -/

theorem State.eq_iff_fields {s t : State} :
    s = t ↔ s.a = t.a ∧ s.x = t.x ∧ s.y = t.y ∧ s.sp = t.sp ∧ s.pc = t.pc ∧ s.flags = t.flags ∧ s.status = t.status ∧
      s.mem = t.mem := by
  cases s; cases t
  simp [and_comm, and_assoc, and_left_comm]

theorem Flags.eq_iff_fields {f g : Flags} :
    f = g ↔ f.n = g.n ∧ f.v = g.v ∧ f.d = g.d ∧ f.i = g.i ∧ f.z = g.z ∧ f.c = g.c := by
  cases f; cases g
  simp

/-- Settles O59: a snapshot shows every field, registers as the numbers that determine them, and canonical memories
that read alike are equal. -/
theorem snapshotsTellStatesApart : Obligations.SnapshotsTellStatesApart := by
  refine ⟨fun s t => ?_, fun s t hs ht => ?_⟩
  · simp only [getState, Snapshot.mk.injEq, BitVec.toNat_inj, State.eq_iff_fields, Flags.eq_iff_fields]
    tauto
  · have hmem : s.mem = t.mem ↔ SameMemory s t :=
      ⟨fun h b => by rw [State.read, State.read, h], fun h => Memory.ext_of_wf hs ht fun a => (h a).symm⟩
    rw [State.eq_iff_fields, hmem]

end Sys2Proof.Machine
end

section
/-! PROOFS. The memory port (spec 20_memory.md rules R36 and R37; decisions D13 and D15): reads of a state are served
by its own memory and change nothing, pushes are served one write at a time, and the accesses of an executor are those
of its effect. -/

namespace Sys2Proof.Machine

/-! ## Serving transactions -/

theorem Memory.serve_append (m : Memory) (ts us : List Transaction) :
    m.serve (ts ++ us) = (m.serve ts).bind fun m' => m'.serve us := by
  induction ts generalizing m with
  | nil => rfl
  | cons t rest ih =>
    cases t with
    | read a d =>
      rw [List.cons_append, Memory.serve, Memory.serve]
      split
      · exact ih m
      · rfl
    | write a d =>
      rw [List.cons_append, Memory.serve, Memory.serve]
      exact ih _

/-- A read that sees the byte of the memory block is served and changes nothing (rule R37). -/
theorem Memory.serve_read {m : Memory} {a : Addr} {d : Byte} (h : m.read a.toNat = d) (rest : List Transaction) :
    m.serve (.read a d :: rest) = m.serve rest := by
  rw [Memory.serve, if_pos h]

theorem serve_reads (s : State) (a : Addr) (rest : List Transaction) :
    s.mem.serve (s.reads a :: rest) = s.mem.serve rest :=
  Memory.serve_read rfl rest

/-- Every transaction of the list is a read of the state. -/
def AllReads (s : State) (ts : List Transaction) : Prop := ∀ t ∈ ts, ∃ a, t = s.reads a

theorem AllReads.serve {s : State} {ts : List Transaction} (h : AllReads s ts) : s.mem.serve ts = some s.mem := by
  induction ts with
  | nil => rfl
  | cons t rest ih =>
    obtain ⟨⟨a, rfl⟩, hrest⟩ := List.forall_mem_cons.mp h
    rw [serve_reads]
    exact ih hrest

/-- Pushing bytes is served as one write after another (rule R29). -/
theorem serve_pushTransactions (s : State) (bytes : List Byte) :
    s.mem.serve (pushTransactions s.sp bytes) = some (s.pushAll bytes).mem := by
  induction bytes generalizing s with
  | nil => rfl
  | cons b rest ih => exact ih (s.push b)

theorem allReads_popTransactions (s : State) (n : Nat) (sp : Byte) : AllReads s (popTransactions n sp s) := by
  induction n generalizing sp with
  | zero => exact List.forall_mem_nil _
  | succ n ih => exact List.forall_mem_cons.mpr ⟨⟨_, rfl⟩, ih _⟩

theorem allReads_resolverReads (o : Operand) (s : State) : AllReads s (resolverReads o s) := by
  cases o <;> simp [AllReads, resolverReads, pointerReads]

/-! ## The accesses of an executor -/

/-- The vector reads of BRK come after its pushes, which do not reach the vector (rule R36 item 6). -/
theorem serve_vector (s : State) (bytes : List Byte) :
    (s.pushAll bytes).mem.serve [s.reads Config.breakVector, s.reads (Config.breakVector + 1#16)] =
      some (s.pushAll bytes).mem := by
  have hread (a : Addr) (ha : ∀ p, a ≠ stackAddr p) : (s.pushAll bytes).read a = s.read a := by
    induction bytes generalizing s with
    | nil => rfl
    | cons b rest ih => rw [State.pushAll, ih, State.read_push, if_neg (ha _)]
  rw [State.reads, Memory.serve_read (hread _ fun p => (stackAddr_ne_vector p).1.symm),
    State.reads, Memory.serve_read (hread _ fun p => (stackAddr_ne_vector p).2.symm), Memory.serve]

/-- The accesses of an executor at its effective address and on the stack take memory to what its effect says (rules R36
and R75). -/
theorem Effect.serve {i : Instr} {s t : State} (h : Effect s i.operand i.mnemonic t) :
    s.mem.serve (dataTransactions i s ++ stackTransactions i.mnemonic s) = some t.mem := by
  unfold dataTransactions
  generalize i.mnemonic = m at h ⊢
  generalize i.operand = o at h ⊢
  cases h with
  | ADC | SBC | CMP | CPX | CPY | BIT | AND | ORA | EOR | LDA | LDX | LDY =>
    cases resolve o s with
    | none => rfl
    | some ea => exact serve_reads s ea []
  | ASL ea h | LSR ea h | ROL ea h | ROR ea h | INC ea h | DEC ea h =>
    rw [h]
    exact serve_reads s ea _
  | STA ea h | STX ea h | STY ea h =>
    rw [h]
    rfl
  | JSR ea h =>
    rw [h]
    exact serve_pushTransactions s _
  | PHA h | PHP h =>
    subst h
    exact serve_pushTransactions s _
  | BRK h =>
    subst h
    rw [trapEntry_mem]
    refine (Memory.serve_append s.mem (pushTransactions s.sp _) _).trans ?_
    rw [serve_pushTransactions]
    exact serve_vector s _
  | PLA h | PLP h | RTS h | RTI h =>
    subst h
    exact (allReads_popTransactions s _ s.sp).serve
  | JMP ea h =>
    rw [h]
    rfl
  | BCC d h | BCS d h | BEQ d h | BNE d h | BMI d h | BPL d h | BVC d h | BVS d h | ASL_A h | LSR_A h | ROL_A h
  | ROR_A h | INX h | INY h | DEX h | DEY h | SEC h | CLC h | SED h | CLD h | SEI h | CLI h | CLV h | NOP h | TAX h
  | TAY h | TXA h | TYA h | TSX h | TXS h =>
    subst h
    rfl

/-- Settles O57: the opcode read and the resolver's reads change nothing, and the executor's accesses have its effect; a
stopped core makes no access, and an illegal byte is the only one its tick reads. -/
theorem memoryPortServesEveryTick : Obligations.MemoryPortServesEveryTick := by
  intro s t hstep
  obtain ⟨op, at_, hs, h⟩ | ⟨op, hrun, hfetch, h⟩ | ⟨i, hrun, hfetch, h⟩ := step_cases s
  · cases h.symm.trans hstep
    simp [transactions, hs, Memory.serve]
  · cases h.symm.trans hstep
    simp only [transactions, hrun, hfetch, serve_reads]
    rfl
  · have heffect : Effect s i.operand i.mnemonic t := effect_of_exec (h.symm.trans hstep)
    simp only [transactions, hrun, hfetch]
    rw [serve_reads, List.append_assoc, Memory.serve_append, (allReads_resolverReads _ s).serve]
    exact heffect.serve

end Sys2Proof.Machine
end

section
/-! PROOFS. What instructions leave alone (the frame rule, decision D16; spec 10_state.md rules R3 to R8 and R14,
20_memory.md rules R22 and R29 to R31): for each part of the state, the effects that do not write it; for the storing
and the stack instructions, the bytes they do not reach; and that D and I steer nothing (41_arithmetic_compare.md rule
R85). -/

namespace Sys2Proof.Machine

variable {s t : State} {o : Operand} {m : Mnemonic}

/-! ## Memory -/

/-- Memory is written at an effective address or on the stack, and the accumulator forms have neither (rule R22). -/
theorem Effect.mem_eq (h : Effect s o m t)
    (hm : m ∉ ([.STA, .STX, .STY, .INC, .DEC, .ASL, .LSR, .ROL, .ROR, .PHA, .PHP, .JSR, .BRK] : List Mnemonic) ∨
      o = .accumulator) : t.mem = s.mem := by
  cases h with
  | STA ea h | STX ea h | STY ea h | INC ea h | DEC ea h | ASL ea h | LSR ea h | ROL ea h | ROR ea h | JSR ea h =>
    obtain hm | rfl := hm
    · exact absurd (by decide) hm
    · cases h
  | PHA h | PHP h | BRK h =>
    obtain hm | rfl := hm
    · exact absurd (by decide) hm
    · cases h
  | _ => rfl

/-- Settles O4: a write is read back at its address alone, and an effect outside the listed writers has the memory it
began with. -/
theorem writeSetsOneCellAndOnlyListedInstructionsWrite :
    Obligations.WriteSetsOneCellAndOnlyListedInstructionsWrite := by
  refine ⟨fun s a v => ⟨fun b => s.read_write a b v, rfl⟩, fun i s t h hm => ?_⟩
  have hmem : t.mem = s.mem := (effect_of_exec h).mem_eq hm
  exact ⟨hmem, fun b => by rw [State.read, State.read, hmem]⟩

/-! ## Registers -/

theorem Effect.a_eq (h : Effect s o m t)
    (hm : ¬(m ∈ ([.ADC, .SBC, .AND, .ORA, .EOR, .LDA, .PLA, .TXA, .TYA] : List Mnemonic) ∨
      m ∈ ([.ASL, .LSR, .ROL, .ROR] : List Mnemonic) ∧ o = .accumulator)) : t.a = s.a := by
  cases h with
  | ADC | SBC | AND | ORA | EOR | LDA | PLA | TXA | TYA => exact absurd (.inl (by decide)) hm
  | ASL_A ho | LSR_A ho | ROL_A ho | ROR_A ho => exact absurd (.inr ⟨by decide, ho⟩) hm
  | BRK => rw [trapEntry_a]
  | _ => rfl

theorem Effect.x_eq (h : Effect s o m t) (hm : m ∉ ([.LDX, .TAX, .TSX, .INX, .DEX] : List Mnemonic)) : t.x = s.x := by
  cases h with
  | LDX | TAX | TSX | INX | DEX => exact absurd (by decide) hm
  | BRK => rw [trapEntry_x]
  | _ => rfl

theorem Effect.y_eq (h : Effect s o m t) (hm : m ∉ ([.LDY, .TAY, .INY, .DEY] : List Mnemonic)) : t.y = s.y := by
  cases h with
  | LDY | TAY | INY | DEY => exact absurd (by decide) hm
  | BRK => rw [trapEntry_y]
  | _ => rfl

theorem Effect.sp_eq (h : Effect s o m t)
    (hm : m ∉ ([.PHA, .PHP, .PLA, .PLP, .JSR, .RTS, .BRK, .RTI, .TXS] : List Mnemonic)) : t.sp = s.sp := by
  cases h with
  | PHA | PHP | PLA | PLP | JSR | RTS | BRK | RTI | TXS => exact absurd (by decide) hm
  | _ => rfl

/-- Settles O43: what is not listed as a writer of a register keeps it, said the other way round. -/
theorem registersAreWrittenOnlyByTheirInstructions : Obligations.RegistersAreWrittenOnlyByTheirInstructions := by
  intro i s t h
  have he : Effect s i.operand i.mnemonic t := effect_of_exec h
  exact ⟨not_imp_comm.mp he.a_eq, not_imp_comm.mp he.x_eq, not_imp_comm.mp he.y_eq, not_imp_comm.mp he.sp_eq,
    he.status_eq⟩

/-! ## Flags -/

/-- N and Z have the same writers (rule R8). -/
theorem Effect.nz_eq (h : Effect s o m t)
    (hm : m ∉ ([.ADC, .SBC, .CMP, .CPX, .CPY, .ASL, .LSR, .ROL, .ROR, .AND, .ORA, .EOR, .INC, .DEC, .INX, .INY, .DEX,
      .DEY, .LDA, .LDX, .LDY, .TAX, .TAY, .TXA, .TYA, .TSX, .PLA, .BIT, .PLP, .RTI] : List Mnemonic)) :
    t.flags.n = s.flags.n ∧ t.flags.z = s.flags.z := by
  cases h with
  | STA | STX | STY | BCC | BCS | BEQ | BNE | BMI | BPL | BVC | BVS | JMP | JSR | RTS | PHA | PHP | SEC | CLC | SED
  | CLD | SEI | CLI | CLV | NOP | TXS => exact ⟨rfl, rfl⟩
  | BRK => simp only [trapEntry_flags, and_self]
  | _ => exact absurd (by decide) hm

theorem Effect.flag_v_eq (h : Effect s o m t) (hm : m ∉ ([.ADC, .SBC, .BIT, .CLV, .PLP, .RTI] : List Mnemonic)) :
    t.flags.v = s.flags.v := by
  cases h with
  | ADC | SBC | BIT | CLV | PLP | RTI => exact absurd (by decide) hm
  | BRK => rw [trapEntry_flags]
  | _ => rfl

theorem Effect.flag_d_eq (h : Effect s o m t) (hm : m ∉ ([.SED, .CLD, .PLP, .RTI] : List Mnemonic)) :
    t.flags.d = s.flags.d := by
  cases h with
  | SED | CLD | PLP | RTI => exact absurd (by decide) hm
  | BRK => rw [trapEntry_flags]
  | _ => rfl

theorem Effect.flag_i_eq (h : Effect s o m t) (hm : m ∉ ([.SEI, .CLI, .PLP, .RTI] : List Mnemonic)) :
    t.flags.i = s.flags.i := by
  cases h with
  | SEI | CLI | PLP | RTI => exact absurd (by decide) hm
  | BRK => rw [trapEntry_flags]
  | _ => rfl

theorem Effect.flag_c_eq (h : Effect s o m t)
    (hm : m ∉ ([.ADC, .SBC, .CMP, .CPX, .CPY, .ASL, .LSR, .ROL, .ROR, .SEC, .CLC, .PLP, .RTI] : List Mnemonic)) :
    t.flags.c = s.flags.c := by
  cases h with
  | ADC | SBC | CMP | CPX | CPY | ASL_A | ASL | LSR_A | LSR | ROL_A | ROL | ROR_A | ROR | SEC | CLC | PLP | RTI =>
    exact absurd (by decide) hm
  | BRK => rw [trapEntry_flags]
  | _ => rfl

/-- Settles O44: what is not listed as a writer of a flag keeps it, said the other way round. -/
theorem flagsAreWrittenOnlyByTheirInstructions : Obligations.FlagsAreWrittenOnlyByTheirInstructions := by
  intro i s t h nz
  have he : Effect s i.operand i.mnemonic t := effect_of_exec h
  exact ⟨not_imp_comm.mp fun hm => (he.nz_eq hm).1, not_imp_comm.mp fun hm => (he.nz_eq hm).2,
    not_imp_comm.mp he.flag_v_eq, not_imp_comm.mp he.flag_d_eq, not_imp_comm.mp he.flag_i_eq,
    not_imp_comm.mp he.flag_c_eq⟩

/-! ## The storing and the stack instructions -/

/-- What a storing instruction does: one write at its effective address, and flags that only INC, DEC and the shifts
change. -/
theorem Effect.of_store {ea : Addr} (h : Effect s o m t)
    (hm : m ∈ ([.STA, .STX, .STY, .INC, .DEC, .ASL, .LSR, .ROL, .ROR] : List Mnemonic)) (hea : resolve o s = some ea) :
    ∃ v f pc, t = ((s.write ea v).setFlags f).setPc pc := by
  cases h with
  | STA ea' h | STX ea' h | STY ea' h | INC ea' h | DEC ea' h | ASL ea' h | LSR ea' h | ROL ea' h | ROR ea' h =>
    cases h.symm.trans hea
    exact ⟨_, _, _, rfl⟩
  | ASL_A h | LSR_A h | ROL_A h | ROR_A h =>
    subst h
    cases hea
  | _ => exact absurd hm (by decide)

/-- Settles O41: the instruction is one write, the flags and PC; the flags it keeps are those it is no writer of. -/
theorem storingInstructionsChangeOneByte : Obligations.StoringInstructionsChangeOneByte := by
  intro i s t ea hm hea h
  have he : Effect s i.operand i.mnemonic t := effect_of_exec h
  obtain ⟨v, f, pc, ht⟩ := he.of_store hm hea
  have hflags : t.flags.v = s.flags.v ∧ t.flags.d = s.flags.d ∧ t.flags.i = s.flags.i ∧
      (i.mnemonic ∈ ([.STA, .STX, .STY] : List Mnemonic) → t.flags = s.flags) ∧
      (i.mnemonic ∈ ([.INC, .DEC] : List Mnemonic) → t.flags.c = s.flags.c) := by
    generalize i.mnemonic = m at he hm ⊢
    cases he with
    | STA | STX | STY => exact ⟨rfl, rfl, rfl, fun _ => rfl, fun _ => rfl⟩
    | INC | DEC => exact ⟨rfl, rfl, rfl, fun h => absurd h (by decide), fun _ => rfl⟩
    | ASL | LSR | ROL | ROR | ASL_A | LSR_A | ROL_A | ROR_A =>
      exact ⟨rfl, rfl, rfl, fun h => absurd h (by decide), fun h => absurd h (by decide)⟩
    | _ => exact absurd hm (by decide)
  subst ht
  exact ⟨fun b hb => s.read_write_ne (mt List.mem_singleton.mpr hb) v, rfl, rfl, rfl, rfl, rfl, hflags⟩

/-- Outside its slots a stack instruction leaves memory alone, and SP moves by the bytes moved (rules R29 to R31). -/
theorem Effect.of_stack {slots : List Addr} {delta : Byte} (h : Effect s o m t)
    (hm : (m, slots, delta) ∈ ([
      (.PHA, [stackAddr s.sp], 0xFF#8), (.PHP, [stackAddr s.sp], 0xFF#8),
      (.JSR, [stackAddr s.sp, stackAddr (s.sp - 1#8)], 0xFE#8),
      (.BRK, [stackAddr s.sp, stackAddr (s.sp - 1#8), stackAddr (s.sp - 2#8)], 0xFD#8),
      (.PLA, [], 1#8), (.PLP, [], 1#8), (.RTS, [], 2#8), (.RTI, [], 3#8)] : List (Mnemonic × List Addr × Byte))) :
    SameMemoryExcept slots s t ∧ t.sp = s.sp + delta := by
  cases h with
  | PHA | PHP =>
    obtain ⟨rfl, rfl⟩ : slots = [stackAddr s.sp] ∧ delta = 0xFF#8 := by simpa using hm
    refine ⟨fun b hb => ?_, BitVec.sub_eq_add_neg s.sp 1#8⟩
    rw [State.read_setPc, State.read_push, if_neg (mt List.mem_singleton.mpr hb)]
  | JSR =>
    obtain ⟨rfl, rfl⟩ : slots = [stackAddr s.sp, stackAddr (s.sp - 1#8)] ∧ delta = 0xFE#8 := by simpa using hm
    refine ⟨fun b hb => ?_, (s.push16_sp _).trans (BitVec.sub_eq_add_neg s.sp 2#8)⟩
    obtain ⟨h0, h1⟩ : b ≠ stackAddr s.sp ∧ b ≠ stackAddr (s.sp - 1#8) := by simpa using hb
    rw [State.read_setPc, State.read_push16, if_neg h1, if_neg h0]
  | BRK =>
    obtain ⟨rfl, rfl⟩ : slots = [stackAddr s.sp, stackAddr (s.sp - 1#8), stackAddr (s.sp - 2#8)] ∧ delta = 0xFD#8 := by
      simpa using hm
    refine ⟨fun b hb => ?_, (trapEntry_sp _ s).trans (BitVec.sub_eq_add_neg s.sp 3#8)⟩
    obtain ⟨h0, h1, h2⟩ : b ≠ stackAddr s.sp ∧ b ≠ stackAddr (s.sp - 1#8) ∧ b ≠ stackAddr (s.sp - 2#8) := by
      simpa using hb
    rw [read_trapEntry, if_neg h2, if_neg h1, if_neg h0]
  | PLA | PLP =>
    obtain ⟨rfl, rfl⟩ : slots = [] ∧ delta = 1#8 := by simpa using hm
    exact ⟨fun b _ => rfl, rfl⟩
  | RTS =>
    obtain ⟨rfl, rfl⟩ : slots = [] ∧ delta = 2#8 := by simpa using hm
    exact ⟨fun b _ => rfl, s.pop16_sp⟩
  | RTI =>
    obtain ⟨rfl, rfl⟩ : slots = [] ∧ delta = 3#8 := by simpa using hm
    rw [trapReturn_eq]
    exact ⟨fun b _ => rfl, rfl⟩
  | _ => simp at hm

/-- The registers and flags that a stack instruction leaves alone. -/
theorem Effect.stack_frame (h : Effect s o m t)
    (hm : m ∈ ([.PHA, .PHP, .JSR, .BRK, .PLA, .PLP, .RTS, .RTI] : List Mnemonic)) :
    (m ≠ .PLA → t.a = s.a) ∧ t.x = s.x ∧ t.y = s.y ∧
      (m ∈ ([.PHA, .PHP, .JSR, .BRK, .RTS] : List Mnemonic) → t.flags = s.flags) := by
  cases h with
  | PHA | PHP | JSR | BRK | RTS => simp
  | PLA => exact ⟨fun h => absurd rfl h, rfl, rfl, fun h => absurd h (by decide)⟩
  | PLP => exact ⟨fun _ => rfl, rfl, rfl, fun h => absurd h (by decide)⟩
  | RTI =>
    rw [trapReturn_eq]
    exact ⟨fun _ => rfl, rfl, rfl, fun h => absurd h (by decide)⟩
  | _ => exact absurd hm (by decide)

/-- Settles O42: the slots and SP of each effect, and the registers and flags it leaves alone. -/
theorem stackInstructionsChangeTheirSlotsOnly : Obligations.StackInstructionsChangeTheirSlotsOnly := by
  intro i s t slots delta hm h
  have he : Effect s i.operand i.mnemonic t := effect_of_exec h
  obtain ⟨hmem, hsp⟩ := he.of_stack hm
  obtain ⟨ha, hx, hy, hflags⟩ := he.stack_frame (List.mem_map_of_mem (f := Prod.fst) hm)
  exact ⟨hmem, hsp, ha, hx, hy, he.status_eq, hflags⟩

/-! ## D and I -/

theorem branchIf_withDI (cond : Bool) (d : Int) (s : State) (p q : Bool) :
    ∃ t, branchIf cond d s = .next t ∧ branchIf cond d (s.withDI p q) = .next (t.withDI p q) := by
  cases cond <;> exact ⟨_, rfl, rfl⟩

/-- An instruction that neither writes nor pushes D and I commutes with setting them (rules R85 and R165). -/
theorem exec_withDI {i : Instr} (s : State) (d q : Bool)
    (hm : i.mnemonic ∉ ([.SED, .CLD, .SEI, .CLI, .PHP, .PLP, .BRK, .RTI] : List Mnemonic)) :
    ∃ t, exec i s = .next t ∧ exec i (s.withDI d q) = .next (t.withDI d q) := by
  cases i with
  | sed | cld | sei | cli | php | plp | brk | rti => exact absurd (by decide) hm
  | bcc e | bcs e | beq e | bne e | bmi e | bpl e | bvc e | bvs e => exact branchIf_withDI _ e s d q
  | _ => exact ⟨_, rfl, rfl⟩

/-- Settles O17: the instruction commutes with setting D and I, and its effect is none of those that write them. -/
theorem decimalAndInterruptFlagsSteerNothing : Obligations.DecimalAndInterruptFlagsSteerNothing := by
  intro i s t d q hm h
  have he : Effect s i.operand i.mnemonic t := effect_of_exec h
  obtain ⟨u, hu, hq⟩ := exec_withDI s d q hm
  cases h.symm.trans hu
  have hd : ([.SED, .CLD, .PLP, .RTI] : List Mnemonic) ⊆ [.SED, .CLD, .SEI, .CLI, .PHP, .PLP, .BRK, .RTI] := by decide
  have hi : ([.SEI, .CLI, .PLP, .RTI] : List Mnemonic) ⊆ [.SED, .CLD, .SEI, .CLI, .PHP, .PLP, .BRK, .RTI] := by decide
  exact ⟨hq, he.flag_d_eq (mt (@hd _) hm), he.flag_i_eq (mt (@hi _) hm)⟩

end Sys2Proof.Machine
end

section
/-! PROOFS. The stack as a whole (spec 44_stack_system.md rule R131): what a row of pops gives, in terms of the reads
above SP, and that a push below them does not disturb it. -/

namespace Sys2Proof.Machine

variable (s : State)

/-- A row of pops gives the bytes above SP, from the first one up, with 8-bit wrap (rule R30). -/
theorem State.popAll_bytes (n : Nat) :
    (s.popAll n).1 = (List.range n).map fun k => s.read (stackAddr (s.sp + BitVec.ofNat 8 (k + 1))) := by
  induction n generalizing s with
  | zero => rfl
  | succ n ih =>
    have hsp (k : Nat) : s.sp + 1#8 + BitVec.ofNat 8 (k + 1) = s.sp + BitVec.ofNat 8 (k + 1 + 1) := by bv_omega
    rw [State.popAll, ih, List.range_succ_eq_map, List.map_cons, List.map_map, State.pop_value]
    simp only [State.pop_sp, hsp, State.read, State.pop_mem, Function.comp_def, Nat.succ_eq_add_one, Nat.zero_add]

theorem State.popAll_sp (n : Nat) : (s.popAll n).2.sp = s.sp + BitVec.ofNat 8 n := by
  induction n generalizing s with
  | zero => exact (BitVec.add_zero s.sp).symm
  | succ n ih =>
    rw [State.popAll, ih, State.pop_sp]
    bv_omega

theorem State.pushAll_append (xs ys : List Byte) : s.pushAll (xs ++ ys) = (s.pushAll xs).pushAll ys := by
  induction xs generalizing s with
  | nil => rfl
  | cons x xs ih => exact ih (s.push x)

/-- Fewer than 256 pops do not come round to the slot of SP, so a byte written there is not among what they give. -/
theorem State.popAll_write_bytes {n : Nat} (h : n < 256) (v : Byte) :
    ((s.write (stackAddr s.sp) v).popAll n).1 = (s.popAll n).1 := by
  rw [State.popAll_bytes, State.popAll_bytes]
  refine List.map_congr_left fun k hk => State.read_write_ne s (fun heq => ?_) v
  have hlt : k < n := List.mem_range.mp hk
  have hoffset : s.sp + BitVec.ofNat 8 (k + 1) = s.sp := stackAddr_inj.mp heq
  have hzero : (BitVec.ofNat 8 (k + 1)).toNat = 0 := by bv_omega
  rw [BitVec.toNat_ofNat] at hzero
  omega

/-- Settles O6: by induction on the sequence from its end, the last byte pushed being the first popped; what is popped
after it was pushed before it, and SP is there as before that push. -/
theorem poppingReversesPushing : Obligations.PoppingReversesPushing := by
  intro s bytes
  induction bytes using List.reverseRecOn with
  | nil => exact fun _ => ⟨rfl, rfl⟩
  | append_singleton xs b ih =>
    intro hlen
    rw [List.length_append, List.length_singleton] at hlen ⊢
    obtain ⟨hbytes, hsp⟩ := ih (by omega)
    have hlt : xs.length < 256 := by omega
    rw [State.pushAll_append, State.pushAll, State.pushAll, State.popAll, State.pop_push, List.reverse_concat]
    refine ⟨congrArg _ (((s.pushAll xs).popAll_write_bytes hlt b).trans hbytes), ?_⟩
    rw [← hsp, State.popAll_sp, State.popAll_sp, State.write_sp]

end Sys2Proof.Machine
end

section
/-! PROOFS. The zero-page pointers, the branch target and the operand byte (spec 40_cycle_and_addressing.md rules R64,
R71 and R73 to R75; decisions D3 and D8). -/

namespace Sys2Proof.Machine

/-- The value of a zero-page pointer: both its bytes stay in the zero page (rule R25, decision D8). -/
theorem State.readZP16_toNat (s : State) (z : Byte) :
    (s.readZP16 z).toNat = (s.read (BitVec.ofNat 16 z.toNat)).toNat +
      256 * (s.read (BitVec.ofNat 16 ((z.toNat + 1) % 256))).toNat := by
  have haddr (b : Byte) : zeroPageAddr b = BitVec.ofNat 16 b.toNat := (BitVec.ofNat_toNat 16 b).symm
  rw [State.readZP16, wordOf_toNat, haddr, haddr, BitVec.toNat_add, BitVec.toNat_ofNat]

/-- The branch target as a number: the offset counts from the next instruction, modulo 65536 (rule R71, decision D3). -/
theorem eaRelative_toNat (d : Int) (s : State) :
    ((eaRelative d s).toNat : Int) = ((s.pc.toNat : Int) + 2 + d) % 65536 := by
  rw [eaRelative, State.nextPc, BitVec.toNat_add, BitVec.toNat_add, BitVec.toNat_ofInt]
  simp only [Nat.reduceAdd, BitVec.toNat_ofNat, Nat.reducePow, Nat.reduceMod, Nat.cast_ofNat, Nat.mod_add_mod,
    Int.natCast_emod, Nat.cast_add, Int.ofNat_toNat]
  omega

/-- Settles O10: the two pointers and the target as numbers; the sums are those of the modes. -/
theorem pointerAndRelativeModesResolve : Obligations.PointerAndRelativeModesResolve := by
  refine fun s z d => ⟨⟨z + s.x, BitVec.toNat_add z s.x, ?_⟩, ?_, fun _ => ?_⟩
  · exact congrArg some (s.readZP16_toNat (z + s.x))
  · refine congrArg some ((toNat_add_setWidth _ s.y).trans ?_)
    rw [State.readZP16_toNat]
  · exact congrArg some (eaRelative_toNat d s)

/-- Settles O11: the operand is made of the byte at `PC + 1`, which is what an immediate is; the other modes with an
operand byte read it at the effective address. -/
theorem operandIsTheByteAtTheEffectiveAddress : Obligations.OperandIsTheByteAtTheEffectiveAddress := by
  intro s i ea m hf hea hm
  obtain ⟨mode, ho⟩ := operand_of_fetch hf
  rw [ho] at hea hm
  cases mode with
  | implied | accumulator => cases hea
  | indirect | relative => cases hm
  | _ =>
    cases hea
    cases hm
    rfl

end Sys2Proof.Machine
end

section
/-! PROOFS. Sum, difference and comparison (spec 41_arithmetic_compare.md rules R80 to R84; decision D7): V of each as a
condition on exact numbers, and SBC as ADC of the complement. -/

namespace Sys2Proof.Machine

/-! ## ADC -/

/-- Settles O12: ADC is its sum in A and its flags, V by the sign rule, and goes on to the next instruction. -/
theorem adcAddsTheOperandAndCarryInEveryForm : Obligations.AdcAddsTheOperandAndCarryInEveryForm := by
  intro i s hi
  obtain ⟨m, hm, he⟩ := exec_ADC hi s
  refine ⟨m, hm, ?_⟩
  rw [he, retire_next, addToA, Flags.afterArith_eq, addWithCarry_overflow]
  rfl

/-! ## SBC -/

/-- V of SBC as a condition on signs (rule R81). -/
theorem subWithBorrow_overflow (a m : Byte) (c : Bool) :
    (subWithBorrow a m c).overflow = decide (a.msb ≠ m.msb ∧ (subWithBorrow a m c).value.msb ≠ a.msb) :=
  overflow_of_difference a m _

theorem ArithResult.eq_of_fields {r q : ArithResult} (hvalue : r.value = q.value) (hcarry : r.carry = q.carry)
    (hoverflow : r.overflow = q.overflow) : r = q := by
  cases r; cases q
  simp_all only

theorem toNat_not (m : Byte) : (~~~m).toNat = 255 - m.toNat := BitVec.toNat_not

/-- The difference is the sum with the complement, less 256: `a - m - (1 - c) = a + (255 - m) + c - 256`. -/
theorem subWithBorrow_value (a m : Byte) (c : Bool) :
    (subWithBorrow a m c).value = (addWithCarry a (~~~m) c).value := by
  have hm := m.isLt
  apply BitVec.eq_of_toNat_eq
  simp only [subWithBorrow, addWithCarry, BitVec.toNat_ofInt, BitVec.toNat_ofNat, toNat_not]
  omega

theorem subWithBorrow_carry (a m : Byte) (c : Bool) :
    (subWithBorrow a m c).carry = (addWithCarry a (~~~m) c).carry := by
  have hm := m.isLt
  simp only [subWithBorrow, addWithCarry, decide_eq_decide, toNat_not]
  omega

/-- SBC of a byte is ADC of its complement, in result, carry and overflow (rule R81). -/
theorem subWithBorrow_eq_addWithCarry_not (a m : Byte) (c : Bool) : subWithBorrow a m c = addWithCarry a (~~~m) c := by
  refine ArithResult.eq_of_fields (subWithBorrow_value a m c) (subWithBorrow_carry a m c) ?_
  rw [subWithBorrow_overflow, addWithCarry_overflow, subWithBorrow_value, BitVec.msb_not]
  cases a.msb <;> cases m.msb <;> simp

/-- V of SBC is the signed overflow of the difference (decision D7): that of the sum with the complement, whose signed
value is `-m - 1`. -/
theorem subWithBorrow_overflow_eq_decide (a m : Byte) (c : Bool) :
    (subWithBorrow a m c).overflow =
      decide (a.toInt - m.toInt - (1 - (c.toNat : Int)) < -128 ∨ 127 < a.toInt - m.toInt - (1 - (c.toNat : Int))) := by
  have hm := m.isLt
  have hnot : (~~~m).toInt = -m.toInt - 1 := by
    rw [BitVec.toInt_eq_toNat_cond, BitVec.toInt_eq_toNat_cond, toNat_not]
    split <;> split <;> omega
  rw [subWithBorrow_eq_addWithCarry_not, Bool.eq_iff_iff, addWithCarry_overflow_iff, decide_eq_true_iff, hnot]
  omega

/-- Settles O14: SBC is its difference in A and its flags, V by the signed difference, and goes on to the next
instruction. -/
theorem sbcSubtractsWithBorrowInEveryForm : Obligations.SbcSubtractsWithBorrowInEveryForm := by
  intro i s hi
  obtain ⟨m, hm, he⟩ := exec_SBC hi s
  refine ⟨m, hm, ?_⟩
  rw [he, retire_next, subFromA, Flags.afterArith_eq, subWithBorrow_overflow_eq_decide]
  rfl

/-- Settles O15: the two results are one, so A and the flags are the same, and only PC differs. -/
theorem sbcIsAdcOfTheComplement : Obligations.SbcIsAdcOfTheComplement := by
  intro i s hi
  obtain ⟨m, hm, he⟩ := exec_SBC hi s
  refine ⟨m, _, hm, retire_next _ 1, ?_⟩
  rw [he, retire_next, subFromA, subWithBorrow_eq_addWithCarry_not]
  rfl

/-! ## Comparisons -/

/-- A comparison in the words of rule R82: Z says that the bytes are equal. -/
theorem Flags.afterCompare_eq_decide (f : Flags) (reg m : Byte) :
    f.afterCompare reg m =
      { f with n := (reg - m).msb, z := decide (reg = m), c := decide (m.toNat ≤ reg.toNat) } := by
  have hz : (reg - m == 0#8) = decide (reg = m) := by
    rw [beq_eq_decide, decide_eq_decide]
    exact sub_eq_zero
  rw [Flags.afterCompare_eq, hz]

/-- Settles O16: each comparison sets the flags of its register and the operand byte, and goes on to the next
instruction. -/
theorem comparesSetCarryNegativeAndZeroOnly : Obligations.ComparesSetCarryNegativeAndZeroOnly := by
  intro i s reg h
  have hexec : ∃ m, operandByte i.operand s = some m ∧
      exec i s = retire i.operand.mode.len (s.setFlags (s.flags.afterCompare reg m)) := by
    simp only [List.mem_cons, Prod.mk.injEq, List.not_mem_nil, or_false] at h
    obtain ⟨hi, rfl⟩ | ⟨hi, rfl⟩ | ⟨hi, rfl⟩ := h
    · exact exec_CMP hi s
    · exact exec_CPX hi s
    · exact exec_CPY hi s
  obtain ⟨m, hm, he⟩ := hexec
  refine ⟨m, hm, ?_⟩
  rw [he, retire_next, Flags.afterCompare_eq_decide]
  rfl

end Sys2Proof.Machine
end

section
/-! PROOFS. Shifts, logic, increments and decrements (spec 42_shift_logic_incdec.md): the shifted byte and the bit
shifted out as exact arithmetic, and the instructions as their operation, the flags and PC. -/

namespace Sys2Proof.Machine

/-! ## Shifts as arithmetic -/

/-- Bit 7 of a byte says that it is 128 or more, bit 0 that it is odd. -/
theorem getLsbD_seven (v : Byte) : v.getLsbD 7 = decide (128 ≤ v.toNat) := by
  rw [← BitVec.msb_eq_getLsbD_last, BitVec.msb_eq_decide]

theorem getLsbD_zero (v : Byte) : v.getLsbD 0 = decide (v.toNat % 2 = 1) := by
  rw [BitVec.getLsbD, Nat.testBit_zero]

/-- ROL doubles the byte and adds the old carry (rules R94 and R95). -/
theorem rotateLeft_eq (v : Byte) (c : Bool) :
    rotateLeft v c = { value := BitVec.ofNat 8 (2 * v.toNat + c.toNat), carry := decide (128 ≤ v.toNat) } := by
  have hvalue : (v <<< 1) ||| (BitVec.ofBool c).setWidth 8 = BitVec.ofNat 8 (2 * v.toNat + c.toNat) := by
    apply BitVec.eq_of_toNat_eq
    have hc : c.toNat < 2 ^ 1 := c.toNat_lt
    rw [BitVec.toNat_or, BitVec.toNat_shiftLeft, BitVec.toNat_setWidth, BitVec.toNat_ofBool, ← Nat.or_mod_two_pow,
      ← Nat.shiftLeft_add_eq_or_of_lt hc, Nat.shiftLeft_eq, BitVec.toNat_ofNat, Nat.mul_comm]
  rw [rotateLeft, hvalue, getLsbD_seven]

/-- ROR halves the byte and puts the old carry above it (rules R96 and R97). -/
theorem rotateRight_eq (v : Byte) (c : Bool) :
    rotateRight v c = { value := BitVec.ofNat 8 (v.toNat / 2 + 128 * c.toNat), carry := decide (v.toNat % 2 = 1) } := by
  have hvalue : (v >>> 1) ||| ((BitVec.ofBool c).setWidth 8 <<< 7) = BitVec.ofNat 8 (v.toNat / 2 + 128 * c.toNat) := by
    apply BitVec.eq_of_toNat_eq
    have hv : v.toNat < 256 := v.isLt
    have hc : c.toNat < 2 := c.toNat_lt
    have hhalf : v.toNat >>> 1 < 2 ^ 7 := by omega
    rw [BitVec.toNat_or, BitVec.toNat_ushiftRight, BitVec.toNat_shiftLeft, BitVec.toNat_setWidth, BitVec.toNat_ofBool,
      Nat.mod_eq_of_lt (by omega), Nat.mod_eq_of_lt (by omega), Nat.or_comm, ← Nat.shiftLeft_add_eq_or_of_lt hhalf,
      BitVec.toNat_ofNat]
    omega
  rw [rotateRight, hvalue, getLsbD_zero]

/-- ASL is ROL of a clear carry (rules R90 and R91). -/
theorem shiftLeft_eq (v : Byte) (c : Bool) :
    shiftLeft v c = { value := BitVec.ofNat 8 (2 * v.toNat), carry := decide (128 ≤ v.toNat) } := by
  have h : shiftLeft v c = rotateLeft v false := by simp [shiftLeft, rotateLeft]
  rw [h, rotateLeft_eq]
  rfl

/-- LSR is ROR of a clear carry (rules R92 and R93). -/
theorem shiftRight_eq (v : Byte) (c : Bool) :
    shiftRight v c = { value := BitVec.ofNat 8 (v.toNat / 2), carry := decide (v.toNat % 2 = 1) } := by
  have h : shiftRight v c = rotateRight v false := by simp [shiftRight, rotateRight]
  rw [h, rotateRight_eq]
  rfl

/-- A byte below 128 has bit 7 clear: the result of LSR (rules R92 and R93). -/
theorem msb_half (v : Byte) : (BitVec.ofNat 8 (v.toNat / 2)).msb = false := by
  have hv := v.isLt
  rw [BitVec.msb_eq_decide, BitVec.toNat_ofNat, decide_eq_false_iff_not]
  omega

/-! ## The shifts and rotates -/

/-- The two forms of a shift, in the words of `exec_ASL`, `exec_LSR`, `exec_ROL` and `exec_ROR`. -/
def IsShift (i : Instr) (f : Byte → Bool → ShiftResult) (s : State) : Prop :=
  (i.operand = .accumulator ∧ exec i s = retire 0 (shiftA f s)) ∨
    ∃ ea, resolve i.operand s = some ea ∧ operandByte i.operand s = some (s.read ea) ∧
      exec i s = retire i.operand.mode.len (shiftAt f ea s)

variable {i : Instr} {f : Byte → Bool → ShiftResult} {s : State} {r : Byte} {k : Bool}

/-- A shift with an effective address is its memory form. -/
theorem IsShift.exec_memory {ea : Addr} (h : IsShift i f s) (hea : resolve i.operand s = some ea)
    (hf : f (s.read ea) s.flags.c = { value := r, carry := k }) :
    exec i s = .next { s with
      mem := (s.write ea r).mem
      flags := { s.flags with n := r.msb, z := r == 0#8, c := k }
      pc := s.pc + BitVec.ofNat 16 i.length } := by
  obtain ⟨hacc, -⟩ | ⟨ea', hea', -, he⟩ := h
  · rw [hacc] at hea
    cases hea
  · cases hea'.symm.trans hea
    rw [he, retire_next, shiftAt, hf]
    rfl

/-- Settles O18: each shift is its memory form, with the byte and the carry that its function gives. -/
theorem shiftsOfMemoryByOnePlace : Obligations.ShiftsOfMemoryByOnePlace := by
  intro i s ea r k hea h
  simp only [List.mem_cons, Prod.mk.injEq, List.not_mem_nil, or_false] at h
  obtain ⟨hi, rfl, rfl⟩ | ⟨hi, rfl, rfl⟩ | ⟨hi, rfl, rfl⟩ | ⟨hi, rfl, rfl⟩ := h
  · have hshift : IsShift i shiftLeft s := exec_ASL hi s
    exact ⟨hshift.exec_memory hea (shiftLeft_eq _ _), fun h => absurd (hi.symm.trans h) (by decide)⟩
  · have hshift : IsShift i shiftRight s := exec_LSR hi s
    exact ⟨hshift.exec_memory hea (shiftRight_eq _ _), fun _ => msb_half _⟩
  · have hshift : IsShift i rotateLeft s := exec_ROL hi s
    exact ⟨hshift.exec_memory hea (rotateLeft_eq _ _), fun h => absurd (hi.symm.trans h) (by decide)⟩
  · have hshift : IsShift i rotateRight s := exec_ROR hi s
    exact ⟨hshift.exec_memory hea (rotateRight_eq _ _), fun h => absurd (hi.symm.trans h) (by decide)⟩

/-- A shift of A writes A, three flags and PC. -/
theorem retire_shiftA (hf : f s.a s.flags.c = { value := r, carry := k }) :
    retire 0 (shiftA f s) = .next { s with
      a := r
      flags := { s.flags with n := r.msb, z := r == 0#8, c := k }
      pc := s.pc + 1#16 } := by
  rw [retire_next, shiftA, hf]
  rfl

/-- Settles O19: each accumulator form shifts A, with the byte and the carry that its function gives. -/
theorem shiftsOfTheAccumulatorByOnePlace : Obligations.ShiftsOfTheAccumulatorByOnePlace := by
  intro i s r k h
  simp only [List.mem_cons, Prod.mk.injEq, List.not_mem_nil, or_false] at h
  obtain ⟨rfl, rfl, rfl⟩ | ⟨rfl, rfl, rfl⟩ | ⟨rfl, rfl, rfl⟩ | ⟨rfl, rfl, rfl⟩ := h
  · exact ⟨retire_shiftA (shiftLeft_eq _ _), fun h => by cases h⟩
  · exact ⟨retire_shiftA (shiftRight_eq _ _), fun _ => msb_half _⟩
  · exact ⟨retire_shiftA (rotateLeft_eq _ _), fun h => by cases h⟩
  · exact ⟨retire_shiftA (rotateRight_eq _ _), fun h => by cases h⟩

/-! ## Logic -/

/-- Settles O21: each loads A with its conjunction, disjunction or exclusive disjunction with the operand byte. -/
theorem logicInstructionsWriteAAndNZ : Obligations.LogicInstructionsWriteAAndNZ := by
  intro i s h
  simp only [List.mem_cons, List.not_mem_nil, or_false] at h
  obtain hi | hi | hi := h
  · obtain ⟨m, hm, he⟩ := exec_AND hi s
    exact ⟨m, s.a &&& m, hm, by simp [hi], he⟩
  · obtain ⟨m, hm, he⟩ := exec_ORA hi s
    exact ⟨m, s.a ||| m, hm, by simp [hi], he⟩
  · obtain ⟨m, hm, he⟩ := exec_EOR hi s
    exact ⟨m, s.a ^^^ m, hm, by simp [hi], he⟩

/-! ## Increments and decrements -/

theorem increment_eq (v : Byte) : increment v = BitVec.ofNat 8 (v.toNat + 1) := by
  rw [increment]
  bv_omega

theorem decrement_eq (v : Byte) : decrement v = BitVec.ofNat 8 (v.toNat + 255) := by
  rw [decrement]
  bv_omega

/-- Settles O22: each updates the byte at its effective address by its function, which wraps at 8 bits. -/
theorem incAndDecStepMemoryByOne : Obligations.IncAndDecStepMemoryByOne := by
  intro i s h
  simp only [List.mem_cons, List.not_mem_nil, or_false] at h
  obtain hi | hi := h
  · obtain ⟨ea, hea, -, he⟩ := exec_INC hi s
    exact ⟨ea, increment (s.read ea), hea, by simp [hi, increment_eq], he⟩
  · obtain ⟨ea, hea, -, he⟩ := exec_DEC hi s
    exact ⟨ea, decrement (s.read ea), hea, by simp [hi, decrement_eq], he⟩

/-- Settles O23: each loads its register with the register stepped by one. -/
theorem indexRegistersStepByOne : Obligations.IndexRegistersStepByOne := by
  intro s t i nz h
  simp only [List.mem_cons, Prod.mk.injEq, List.not_mem_nil, or_false] at h
  obtain ⟨rfl, rfl⟩ | ⟨rfl, rfl⟩ | ⟨rfl, rfl⟩ | ⟨rfl, rfl⟩ := h <;> rfl

end Sys2Proof.Machine
end

section
/-! PROOFS. Control transfer and the stack instructions (spec 43_control_transfer.md, 44_stack_system.md): each
meaning is its stack operation and its end, whose laws say where the bytes, SP and PC go; the linkage of JSR with RTS
and of BRK with RTI follows from the bytes the one leaves and the other finds. -/

namespace Sys2Proof.Machine

/-! ## Branches and jumps -/

/-- Settles O24: each branch tests its flag, and taken or not it sets PC alone. -/
theorem branchesTestTheirFlagAndMovePcOnly : Obligations.BranchesTestTheirFlagAndMovePcOnly := by
  intro s d i taken h
  have hexec : exec i s = branchIf taken d s := by
    simp only [List.mem_cons, Prod.mk.injEq, List.not_mem_nil, or_false] at h
    obtain ⟨rfl, rfl⟩ | ⟨rfl, rfl⟩ | ⟨rfl, rfl⟩ | ⟨rfl, rfl⟩ | ⟨rfl, rfl⟩ | ⟨rfl, rfl⟩ | ⟨rfl, rfl⟩ | ⟨rfl, rfl⟩ := h
    all_goals rfl
  rw [hexec, branchIf_next]
  rfl

/-- Settles O25: the indirect target is the word at the operand, whose value is that of `Read16`. -/
theorem jmpSetsPcDirectlyAndIndirectly : Obligations.JmpSetsPcDirectlyAndIndirectly :=
  fun s w => ⟨rfl, s.read16 w, wordReadsAreLittleEndianAndWrap.1 s w, rfl⟩

/-! ## JSR and RTS -/

/-- JSR pushes the address after it and goes to its operand (rule R120). -/
theorem exec_jsr (w : Addr) (s : State) : exec (.jsr w) s = .next ((s.push16 (s.pc + 3#16)).setPc w) := rfl

/-- Settles O26: the word push of the next address, read back at its two slots and nowhere else. -/
theorem jsrPushesTheNextAddressAndJumps : Obligations.JsrPushesTheNextAddressAndJumps := by
  intro s w
  obtain ⟨hframe, -⟩ := (effect_of_exec (exec_jsr w s)).of_stack (slots := [stackAddr s.sp, stackAddr (s.sp - 1#8)])
    (delta := 0xFE#8) (by simp [Instr.mnemonic])
  refine ⟨_, exec_jsr w s, ?_, rfl, s.read_push16_hi _, s.read_push16_lo _, hframe⟩
  rw [← s.push16_sp (s.pc + 3#16)]
  rfl

/-- Settles O27: the word pop, and its value as a number. -/
theorem rtsPopsPc : Obligations.RtsPopsPc := by
  refine fun s => ⟨s.pop16.1, s.pop16_toNat, ?_⟩
  rw [← s.pop16_sp]
  rfl

/-- Settles O28: the callee's SP is two below the caller's, and the word found above it is the one that JSR pushed. -/
theorem rtsReturnsAfterItsJsr : Obligations.RtsReturnsAfterItsJsr := by
  refine fun s u w => ⟨_, exec_jsr w s, fun hsp hbytes => ?_⟩
  rw [State.setPc_sp, State.push16_sp] at hsp
  have hlo : u.sp + 1#8 = s.sp - 1#8 := by bv_omega
  have hhi : u.sp + 2#8 = s.sp := by bv_omega
  have hword : u.pop16.1 = s.pc + 3#16 := by
    rw [State.pop16_value, hlo, hhi, hbytes _ (by simp), hbytes _ (by simp), State.read_setPc, State.read_setPc,
      State.read_push16_lo, State.read_push16_hi, wordOf_loByte_hiByte]
  rw [← hword, ← hhi, ← u.pop16_sp]
  rfl

/-! ## Pushes and pulls of one byte -/

/-- A push that ends an instruction without operand bytes: its slot holds the byte, and nothing but SP and PC changes
beside (rules R125 and R126). -/
theorem retire_push (s : State) (v : Byte) :
    ∃ t, retire 0 (s.push v) = .next t ∧ t = { s with mem := t.mem, sp := s.sp - 1#8, pc := s.pc + 1#16 } ∧
      t.read (stackAddr s.sp) = v ∧ SameMemoryExcept [stackAddr s.sp] s t := by
  refine ⟨_, rfl, rfl, ?_, fun b hb => ?_⟩
  · rw [State.read_setPc, State.read_push, if_pos rfl]
  · rw [State.read_setPc, State.read_push, if_neg (mt List.mem_singleton.mpr hb)]

/-- The packed status with B set, as the byte of its weights (rule R10). -/
theorem Flags.pack_true_eq_ofNat (f : Flags) :
    f.pack true = BitVec.ofNat 8 (128 * f.n.toNat + 64 * f.v.toNat + 32 + 16 + 8 * f.d.toNat + 4 * f.i.toNat +
      2 * f.z.toNat + f.c.toNat) := by
  calc f.pack true = BitVec.ofNat 8 (f.pack true).toNat := by rw [BitVec.ofNat_toNat, BitVec.setWidth_eq]
    _ = _ := congrArg _ (f.toNat_pack true)

/-- Settles O29: both push one byte, PHP the packed status, which is the sum of its weights. -/
theorem phaAndPhpPushOneByte : Obligations.PhaAndPhpPushOneByte := by
  intro s i v h
  simp only [List.mem_cons, Prod.mk.injEq, List.not_mem_nil, or_false] at h
  obtain ⟨rfl, rfl⟩ | ⟨rfl, rfl⟩ := h
  · exact retire_push s s.a
  · rw [← s.flags.pack_true_eq_ofNat]
    exact retire_push s _

/-- Settles O30: the popped byte is loaded into A. -/
theorem plaPopsAWithNZ : Obligations.PlaPopsAWithNZ := fun _ => rfl

/-- Settles O31: the popped byte is unpacked into the flags. -/
theorem plpPopsAllFlags : Obligations.PlpPopsAllFlags := fun _ => rfl

/-! ## BRK and RTI -/

/-- BRK enters the trap with the address two past its opcode (rule R129, decision D4). -/
theorem exec_brk (s : State) : exec .brk s = .next (trapEntry (s.pc + 2#16) s) := rfl

theorem read_trapEntry_hi (ra : Addr) (s : State) : (trapEntry ra s).read (stackAddr s.sp) = hiByte ra := by
  have h1 : s.sp ≠ s.sp - 1#8 := by bv_omega
  have h2 : s.sp ≠ s.sp - 2#8 := by bv_omega
  simp [read_trapEntry, h1, h2]

theorem read_trapEntry_lo (ra : Addr) (s : State) : (trapEntry ra s).read (stackAddr (s.sp - 1#8)) = loByte ra := by
  have h : s.sp - 1#8 ≠ s.sp - 2#8 := by bv_omega
  simp [read_trapEntry, h]

theorem read_trapEntry_flags (ra : Addr) (s : State) :
    (trapEntry ra s).read (stackAddr (s.sp - 2#8)) = s.flags.pack true := by
  simp [read_trapEntry]

/-- Settles O32: the three bytes of the trap entry at their slots and nowhere else, and the vector as a number. -/
theorem brkPushesThreeBytesAndVectors : Obligations.BrkPushesThreeBytesAndVectors := by
  intro s
  obtain ⟨hframe, -⟩ := (effect_of_exec (exec_brk s)).of_stack
    (slots := [stackAddr s.sp, stackAddr (s.sp - 1#8), stackAddr (s.sp - 2#8)]) (delta := 0xFD#8)
    (by simp [Instr.mnemonic])
  refine ⟨_, exec_brk s, ?_, read_trapEntry_hi _ s, read_trapEntry_lo _ s, read_trapEntry_flags _ s, hframe, ?_⟩
  · rw [trapEntry_eq]
  · rw [trapEntry_pc, State.read16_toNat]
    rfl

/-- Settles O33: the trap return, the target being the word above the flags. -/
theorem rtiPopsFlagsThenPc : Obligations.RtiPopsFlagsThenPc := by
  refine fun s => ⟨_, wordOf_toNat _ _, ?_⟩
  exact congrArg Host.Outcome.next (trapReturn_eq s)

/-- Settles O34: the handler's SP is three below, and the three bytes found above it are those that BRK pushed. -/
theorem rtiUndoesBrk : Obligations.RtiUndoesBrk := by
  refine fun s u => ⟨_, exec_brk s, fun hsp hbytes => ?_⟩
  rw [trapEntry_sp] at hsp
  have hflags : u.sp + 1#8 = s.sp - 2#8 := by bv_omega
  have hlo : u.sp + 2#8 = s.sp - 1#8 := by bv_omega
  have hhi : u.sp + 3#8 = s.sp := by bv_omega
  refine (congrArg Host.Outcome.next (trapReturn_eq u)).trans ?_
  rw [hflags, hlo, hhi, hbytes _ (by simp), hbytes _ (by simp), hbytes _ (by simp), read_trapEntry_flags,
    read_trapEntry_lo, read_trapEntry_hi, wordOf_loByte_hiByte, Flags.unpack_pack]

end Sys2Proof.Machine
end

section
/-! PROOFS. Flag instructions, NOP, transfers, loads and stores (spec 45_flag_nop.md, 46_transfer_load_store.md), and
the reset state (70_reset_and_hazards.md rule R175). -/

namespace Sys2Proof.Machine

/-- Settles O1: each register of the reset state is its constant, and an empty memory reads as zero. -/
theorem resetStateHoldsTheDefaultValues : Obligations.ResetStateHoldsTheDefaultValues :=
  ⟨rfl, rfl, rfl, rfl, rfl, rfl, rfl, fun _ => rfl⟩

/-- Settles O35: each sets its flag and goes on by one. -/
theorem flagInstructionsWriteOneFlag : Obligations.FlagInstructionsWriteOneFlag := by
  intro s i f h
  simp only [List.mem_cons, Prod.mk.injEq, List.not_mem_nil, or_false] at h
  obtain ⟨rfl, rfl⟩ | ⟨rfl, rfl⟩ | ⟨rfl, rfl⟩ | ⟨rfl, rfl⟩ | ⟨rfl, rfl⟩ | ⟨rfl, rfl⟩ | ⟨rfl, rfl⟩ := h <;> rfl

/-- Settles O36: NOP is its end alone. -/
theorem nopAdvancesPcOnly : Obligations.NopAdvancesPcOnly := fun _ => rfl

/-- Settles O37: five load the register they copy to, with N and Z; TXS sets SP alone. -/
theorem transfersCopyOneRegister : Obligations.TransfersCopyOneRegister := by
  intro s t i nz h
  simp only [List.mem_cons, Prod.mk.injEq, List.not_mem_nil, or_false] at h
  obtain ⟨rfl, rfl⟩ | ⟨rfl, rfl⟩ | ⟨rfl, rfl⟩ | ⟨rfl, rfl⟩ | ⟨rfl, rfl⟩ | ⟨rfl, rfl⟩ := h <;> rfl

/-- Settles O38: LDA takes its operand byte and loads A with it, in all its forms. -/
theorem ldaLoadsAWithNZ : Obligations.LdaLoadsAWithNZ := by
  intro i s hi
  obtain ⟨m, hm, he⟩ := exec_LDA hi s
  exact ⟨m, hm, he⟩

/-- Settles O39: LDX and LDY take their operand byte and load their register with it, in all their forms. -/
theorem ldxAndLdyLoadWithNZ : Obligations.LdxAndLdyLoadWithNZ := by
  intro i s h
  simp only [List.mem_cons, List.not_mem_nil, or_false] at h
  obtain hi | hi := h
  · obtain ⟨m, hm, he⟩ := exec_LDX hi s
    exact ⟨m, { s with x := m }, hm, by simp [hi], he⟩
  · obtain ⟨m, hm, he⟩ := exec_LDY hi s
    exact ⟨m, { s with y := m }, hm, by simp [hi], he⟩

/-- Settles O40: each store writes its register at its effective address, in all its forms. -/
theorem storesWriteTheirRegister : Obligations.StoresWriteTheirRegister := by
  intro i s reg h
  simp only [List.mem_cons, Prod.mk.injEq, List.not_mem_nil, or_false] at h
  obtain ⟨hi, rfl⟩ | ⟨hi, rfl⟩ | ⟨hi, rfl⟩ := h
  · obtain ⟨ea, hea, he⟩ := exec_STA hi s
    exact ⟨ea, hea, he⟩
  · obtain ⟨ea, hea, he⟩ := exec_STX hi s
    exact ⟨ea, hea, he⟩
  · obtain ⟨ea, hea, he⟩ := exec_STY hi s
    exact ⟨ea, hea, he⟩

end Sys2Proof.Machine
end

section
/-! PROOFS. The run loop (spec 70_reset_and_hazards.md rules R179 and R184; decisions D11, D12 and D17): what one
bound gives, and that a run that has ended is the same under any greater bound. -/

namespace Sys2Proof.Machine

variable {stop : Byte}

theorem runs_eq_false_iff {s : State} : runs stop s = false ↔ s.read s.pc = stop ∨ s.status ≠ .running := by
  simp only [runs, Bool.and_eq_false_iff, decide_eq_false_iff_not, bne_eq_false_iff_eq, or_comm, ne_eq]

theorem runs_of_ne {s : State} (hrun : s.status = .running) (hne : s.read s.pc ≠ stop) : runs stop s = true := by
  rw [← Bool.not_eq_false, runs_eq_false_iff]
  exact not_or.mpr ⟨hne, not_not.mpr hrun⟩

/-- A loop whose test fails makes no tick, whatever the bound. -/
theorem runN_of_not_runs {s : State} (h : runs stop s = false) (fuel : Nat) : runN stop fuel s = (0, s) := by
  cases fuel with
  | zero => rfl
  | succ fuel => rw [runN, h]; rfl

theorem runN_succ_of_runs {s : State} (h : runs stop s = true) (fuel : Nat) :
    runN stop (fuel + 1) s = ((runN stop fuel (tick s)).1 + 1, (runN stop fuel (tick s)).2) := by
  rw [runN, if_pos h]

theorem runN_le (fuel : Nat) (s : State) : (runN stop fuel s).1 ≤ fuel := by
  induction fuel generalizing s with
  | zero => exact Nat.le_refl 0
  | succ fuel ih =>
    cases h : runs stop s with
    | false => rw [runN_of_not_runs h]; exact Nat.zero_le _
    | true => rw [runN_succ_of_runs h]; exact Nat.succ_le_succ (ih _)

/-- A count below the bound means that the test failed. -/
theorem runs_runN_of_lt {fuel : Nat} {s : State} (h : (runN stop fuel s).1 < fuel) :
    runs stop (runN stop fuel s).2 = false := by
  induction fuel generalizing s with
  | zero => exact absurd h (Nat.not_lt_zero _)
  | succ fuel ih =>
    cases hs : runs stop s with
    | false => rw [runN_of_not_runs hs]; exact hs
    | true =>
      rw [runN_succ_of_runs hs] at h ⊢
      exact ih (Nat.lt_of_succ_lt_succ h)

/-- More fuel does not change a run that has ended. -/
theorem runN_add {fuel : Nat} {s : State} (h : runs stop (runN stop fuel s).2 = false) (more : Nat) :
    runN stop (fuel + more) s = runN stop fuel s := by
  induction fuel generalizing s with
  | zero => rw [Nat.zero_add]; exact runN_of_not_runs h more
  | succ fuel ih =>
    cases hs : runs stop s with
    | false => rw [runN_of_not_runs hs, runN_of_not_runs hs]
    | true =>
      rw [runN_succ_of_runs hs] at h
      rw [Nat.succ_add, runN_succ_of_runs hs, runN_succ_of_runs hs, ih h]

/-- Two bounds under which the run has ended give one end. -/
theorem RunEnds.unique {s t u : State} (ht : RunEnds stop s t) (hu : RunEnds stop s u) : t = u := by
  obtain ⟨n, rfl, hn⟩ := ht
  obtain ⟨k, rfl, hk⟩ := hu
  rw [← runN_add hn k, ← runN_add hk n, Nat.add_comm]

/-- Settles O58: one lemma for each clause; an end that `run` has is one at which the test fails. -/
theorem runStopsBeforeTheSentinel : Obligations.RunStopsBeforeTheSentinel := by
  refine fun stop fuel more s => ⟨fun h => runN_of_not_runs (runs_eq_false_iff.mpr h) fuel,
    fun hrun hne => runN_succ_of_runs (runs_of_ne hrun hne) fuel, runN_le fuel s,
    fun h => ⟨fuel, rfl, runs_runN_of_lt h⟩, fun h => ?_, fun t u => RunEnds.unique⟩
  obtain ⟨_, _, hend⟩ := h
  exact runN_add hend more

end Sys2Proof.Machine
end

section
/-! PROOFS. The assembler on canonical text (spec 30_encoding.md rules R48 to R54; log entry 17): digits and operands
are read back as they were written, no other mode of the table reads an operand's text, and so the line of an
instruction has the bytes of its words. -/

namespace Sys2Proof.Machine.Assembler

/-! ## Digits -/

theorem decimalDigit_hexChar : ∀ n < 10, decimalDigit (hexChar n) = some n := by decide

theorem hexDigit_hexChar : ∀ n < 16, hexDigit (hexChar n) = some n := by decide

/-- A character without a hex value is none of the digits. -/
theorem hexChar_ne {n : Nat} (h : n < 16) {c : Char} (hc : hexDigit c = none) : hexChar n ≠ c := by
  rintro rfl
  rw [hexDigit_hexChar n h] at hc
  cases hc

theorem hexByte_byteText (b : Byte) :
    hexByte (hexChar (b.toNat / 16)) (hexChar (b.toNat % 16)) = some b := by
  have hb := b.isLt
  have hsum : 16 * (b.toNat / 16) + b.toNat % 16 = b.toNat := Nat.div_add_mod _ _
  rw [hexByte, hexDigit_hexChar _ (by omega), hexDigit_hexChar _ (by omega)]
  simp [hsum]

theorem hexWord_wordText (w : Addr) :
    hexWord (hexChar ((hiByte w).toNat / 16)) (hexChar ((hiByte w).toNat % 16))
      (hexChar ((loByte w).toNat / 16)) (hexChar ((loByte w).toNat % 16)) = some w := by
  simp [hexWord, hexByte_byteText]

/-- The decimal text of a number below 1000 is read back. -/
theorem decimalNumber_decimalText {n : Nat} (h : n < 1000) : decimalNumber (decimalText n) = some n := by
  unfold decimalText
  split
  next h1 => simp [decimalNumber, decimalFrom, decimalDigit_hexChar n h1]
  next h1 =>
    split
    next h2 =>
      have hsum : 10 * (n / 10) + n % 10 = n := by omega
      simp [decimalNumber, decimalFrom, decimalDigit_hexChar (n / 10) (by omega),
        decimalDigit_hexChar (n % 10) (by omega), hsum]
    next h2 =>
      have hsum : 10 * (10 * (n / 100) + n / 10 % 10) + n % 10 = n := by omega
      simp [decimalNumber, decimalFrom, decimalDigit_hexChar (n / 100) (by omega),
        decimalDigit_hexChar (n / 10 % 10) (by omega), decimalDigit_hexChar (n % 10) (by omega), hsum]

theorem decimalText_eq_cons (n : Nat) (h : n < 1000) : ∃ k < 10, ∃ rest, decimalText n = hexChar k :: rest := by
  unfold decimalText
  split
  next h1 => exact ⟨n, h1, _, rfl⟩
  next =>
    split
    next => exact ⟨n / 10, by omega, _, rfl⟩
    next => exact ⟨n / 100, by omega, _, rfl⟩

/-- An offset in range is read back from its text: the sign is a minus or none, and the digits are those of its size. -/
theorem signedOffset_text {d : Int} (h : offsetInRange d = true) :
    signedOffset (operandText (.relative d)) = some d := by
  have hrange : -128 ≤ d ∧ d ≤ 127 := by simpa [offsetInRange] using h
  have hnumber : decimalNumber (decimalText d.natAbs) = some d.natAbs := decimalNumber_decimalText (by omega)
  rw [operandText]
  split
  next hneg =>
    have hd : -(d.natAbs : Int) = d := by omega
    simp [signedOffset, hnumber, -Nat.cast_natAbs, hd, h]
  next hpos =>
    obtain ⟨k, hk, rest, htext⟩ := decimalText_eq_cons d.natAbs (by omega)
    have hd : (d.natAbs : Int) = d := by omega
    have hminus : hexChar k ≠ '-' := hexChar_ne (by omega) rfl
    have hplus : hexChar k ≠ '+' := hexChar_ne (by omega) rfl
    rw [htext] at hnumber ⊢
    simp [signedOffset, hminus, hplus, hnumber, hd, h]

/-! ## Operands -/

/-- The operand that a mode makes of any two bytes is read back from its text in that mode (rule R49). -/
theorem parseOperand_operandText (m : Mode) (b1 b2 : Byte) :
    parseOperand m (operandText (operandOf m b1 b2)) = some (operandOf m b1 b2) := by
  cases m with
  | implied | accumulator => rfl
  | immediate | zeroPage | zeroPageX | zeroPageY | indexedIndirect | indirectIndexed =>
    exact congrArg (Option.map _) (hexByte_byteText b1)
  | absolute | absoluteX | absoluteY | indirect => exact congrArg (Option.map _) (hexWord_wordText (wordOf b1 b2))
  | relative => exact congrArg (Option.map _) (signedOffset_text (offsetInRange_offsetOf b1))

/-- The mode that an operand text can only have: by its first character, then by its length and by the character where a
pointer or an address of two digits ends. -/
def modeOfText (t : Text) : Mode :=
  match t with
  | [] => .implied
  | c :: rest =>
    if c = 'A' then .accumulator
    else if c = '#' then .immediate
    else if c = '$' then
      match rest with
      | [_, _, c, d] => if c = ',' then (if d = 'X' then .zeroPageX else .zeroPageY) else .absolute
      | [_, _, _, _, _, d] => if d = 'X' then .absoluteX else .absoluteY
      | _ => .zeroPage
    else if c = '(' then
      match rest with
      | [_, _, _, c, _, _] => if c = ',' then .indexedIndirect else if c = ')' then .indirectIndexed else .indirect
      | _ => .indirect
    else .relative

/-- The third digit of a word is none of the characters that end a zero-page operand. -/
theorem ne_of_hexWord {a b c d : Char} {w : Addr} (hw : hexWord a b c d = some w) {x : Char} (hx : hexDigit x = none) :
    c ≠ x := by
  rintro rfl
  simp [hexWord, hexByte, hx] at hw

/-- An offset begins with a sign or a digit. -/
theorem ne_of_signedOffset {c : Char} {rest : Text} {d : Int} (h : signedOffset (c :: rest) = some d) {x : Char}
    (hx : decimalDigit x = none) (hsign : x ≠ '-' ∧ x ≠ '+') : c ≠ x := by
  rintro rfl
  simp [signedOffset, decimalNumber, hx, hsign.1, hsign.2] at h

/-- No text is an operand in two modes: the mode in which it is one is read off it (rules R49 and R50). Most forms
show it in their literal characters; absolute (`h_8`) and indirect (`h_11`) need that a digit is neither comma nor
bracket, relative (`h_14`) how an offset begins, and the grammar's last line (`h_15`) accepts no text. -/
theorem modeOfText_of_parseOperand {m : Mode} {t : Text} {o : Operand} (h : parseOperand m t = some o) :
    modeOfText t = m := by
  unfold parseOperand at h
  split at h
  case h_8 a b c d =>
    obtain ⟨w, hw, -⟩ := Option.map_eq_some_iff.mp h
    simp [modeOfText, ne_of_hexWord hw (x := ',') rfl]
  case h_11 a b c d =>
    obtain ⟨w, hw, -⟩ := Option.map_eq_some_iff.mp h
    simp [modeOfText, ne_of_hexWord hw (x := ',') rfl, ne_of_hexWord hw (x := ')') rfl]
  case h_14 =>
    obtain ⟨d, hd, -⟩ := Option.map_eq_some_iff.mp h
    cases t with
    | nil => cases hd
    | cons c rest =>
      have hne {x : Char} (hx : decimalDigit x = none) (hsign : x ≠ '-' ∧ x ≠ '+') : c ≠ x :=
        ne_of_signedOffset hd hx hsign
      simp [modeOfText, hne (x := 'A') rfl (by decide), hne (x := '#') rfl (by decide), hne (x := '$') rfl (by decide),
        hne (x := '(') rfl (by decide)]
  case h_15 => cases h
  all_goals rfl

/-! ## Plain text -/

/-- Text without blanks and comments. -/
def Plain (t : Text) : Prop := ∀ c ∈ t, isBlank c = false ∧ c ≠ ';'

@[simp] theorem plain_nil : Plain [] := List.forall_mem_nil _

@[simp] theorem plain_cons {c : Char} {t : Text} : Plain (c :: t) ↔ (isBlank c = false ∧ c ≠ ';') ∧ Plain t :=
  List.forall_mem_cons

@[simp] theorem plain_append {t u : Text} : Plain (t ++ u) ↔ Plain t ∧ Plain u := List.forall_mem_append

theorem plain_hexChar {n : Nat} (h : n < 16) : isBlank (hexChar n) = false ∧ hexChar n ≠ ';' := by
  refine ⟨?_, hexChar_ne h rfl⟩
  simp [isBlank, hexChar_ne h (c := ' ') rfl, hexChar_ne h (c := '\t') rfl, hexChar_ne h (c := '\r') rfl]

@[simp] theorem plain_byteText (b : Byte) : Plain (byteText b) := by
  have hb := b.isLt
  simp [byteText, plain_hexChar (n := b.toNat / 16) (by omega), plain_hexChar (n := b.toNat % 16) (by omega)]

@[simp] theorem plain_wordText (w : Addr) : Plain (wordText w) := plain_append.mpr ⟨plain_byteText _, plain_byteText _⟩

theorem plain_decimalText {n : Nat} (h : n < 1000) : Plain (decimalText n) := by
  unfold decimalText
  have hdigit (k : Nat) (hk : k < 16) := plain_hexChar hk
  split_ifs
  · simp [hdigit n (by omega)]
  · simp [hdigit (n / 10) (by omega), hdigit (n % 10) (by omega)]
  · simp [hdigit (n / 100) (by omega), hdigit (n / 10 % 10) (by omega), hdigit (n % 10) (by omega)]

theorem plain_offsetText {d : Int} (h : offsetInRange d = true) : Plain (operandText (.relative d)) := by
  have hrange : -128 ≤ d ∧ d ≤ 127 := by simpa [offsetInRange] using h
  have hdigits : Plain (decimalText d.natAbs) := plain_decimalText (by omega)
  rw [operandText]
  split
  · exact plain_cons.mpr ⟨by decide, hdigits⟩
  · exact hdigits

theorem plain_operandText (m : Mode) (b1 b2 : Byte) : Plain (operandText (operandOf m b1 b2)) := by
  cases m with
  | relative => exact plain_offsetText (offsetInRange_offsetOf b1)
  | _ => simp [operandOf, operandText, isBlank]

theorem plain_mnemonicText (m : Mnemonic) : Plain (mnemonicText m) := by
  cases m <;> simp [mnemonicText, isBlank]

/-! ## Cutting a line -/

/-- A mnemonic and an operand as a line: one space between them if there is an operand (rule R54). -/
def lineOf (mnemonic operand : Text) : Text :=
  match operand with
  | [] => mnemonic
  | c :: rest => mnemonic ++ ' ' :: c :: rest

theorem instrText_eq (i : Instr) : instrText i = lineOf (mnemonicText i.mnemonic) (operandText i.operand) := by
  rw [instrText]
  cases operandText i.operand <;> rfl

theorem Plain.reverse {t : Text} (h : Plain t) : Plain t.reverse := fun c hc => h c (List.mem_reverse.mp hc)

/-- Plain text at the front of a text keeps its blanks where they are. -/
theorem Plain.dropWhile_append {t : Text} (h : Plain t) (hne : t ≠ []) (u : Text) :
    (t ++ u).dropWhile isBlank = t ++ u := by
  cases t with
  | nil => exact absurd rfl hne
  | cons c rest =>
    obtain ⟨⟨hc, -⟩, -⟩ := plain_cons.mp h
    rw [List.cons_append, List.dropWhile_cons, hc]
    rfl

/-- A text with plain text at both ends is not trimmed. -/
theorem trim_append {t u v : Text} (ht : Plain t) (hv : Plain v) (htne : t ≠ []) (hvne : v ≠ []) :
    trim (t ++ u ++ v) = t ++ u ++ v := by
  rw [trim, List.append_assoc, ht.dropWhile_append htne, ← List.append_assoc, List.reverse_append,
    hv.reverse.dropWhile_append (List.reverse_ne_nil_iff.mpr hvne), ← List.reverse_append, List.reverse_reverse]

theorem Plain.trim {t : Text} (h : Plain t) : trim t = t := by
  by_cases hne : t = []
  · rw [hne]; rfl
  · rw [Assembler.trim, ← List.append_nil t, h.dropWhile_append hne, List.append_nil, ← List.append_nil t.reverse,
      h.reverse.dropWhile_append (List.reverse_ne_nil_iff.mpr hne), List.append_nil, List.reverse_reverse]

section

variable {m o : Text}

theorem not_comment_mem_lineOf (hm : Plain m) (ho : Plain o) : ∀ c ∈ lineOf m o, (c != ';') = true := by
  intro c hc
  have hcases : c ∈ m ∨ c = ' ' ∨ c ∈ o := by
    cases o with
    | nil => exact .inl hc
    | cons d rest => exact (List.mem_append.mp hc).imp_right List.mem_cons.mp
  obtain h | rfl | h := hcases
  · exact bne_iff_ne.mpr (hm c h).2
  · rfl
  · exact bne_iff_ne.mpr (ho c h).2

/-- The line holds no comment and no blanks at its ends (rule R48 step 1). -/
theorem stripped_lineOf (hm : Plain m) (ho : Plain o) (hne : m ≠ []) : stripped (lineOf m o) = lineOf m o := by
  rw [stripped, List.takeWhile_eq_self_iff.mpr (not_comment_mem_lineOf hm ho)]
  cases o with
  | nil => exact hm.trim
  | cons c rest =>
    have h := trim_append (u := [' ']) hm ho hne (List.cons_ne_nil c rest)
    rwa [List.append_assoc] at h

theorem lineOf_ne_nil (hne : m ≠ []) : lineOf m o ≠ [] := by
  cases o with
  | nil => exact hne
  | cons c rest => exact List.append_ne_nil_of_left_ne_nil hne _

/-- The line's first word is its mnemonic. -/
theorem takeWhile_lineOf (hm : Plain m) : (lineOf m o).takeWhile (fun c => !isBlank c) = m := by
  have hword : ∀ c ∈ m, (!isBlank c) = true := fun c hc => by simp [(hm c hc).1]
  cases o with
  | nil => exact List.takeWhile_eq_self_iff.mpr hword
  | cons c rest =>
    rw [lineOf, List.takeWhile_append_of_pos hword]
    exact List.append_nil m

/-- What follows the mnemonic, without the blank, is the operand. -/
theorem trim_dropWhile_lineOf (hm : Plain m) (ho : Plain o) :
    trim ((lineOf m o).dropWhile (fun c => !isBlank c)) = o := by
  have hword : ∀ c ∈ m, (!isBlank c) = true := fun c hc => by simp [(hm c hc).1]
  cases o with
  | nil =>
    rw [lineOf, List.dropWhile_eq_nil_iff.mpr hword]
    rfl
  | cons c rest =>
    rw [lineOf, List.dropWhile_append_of_pos hword]
    exact ho.trim

end

/-! ## Finding the row -/

theorem map_upper_mnemonicText (m : Mnemonic) : (mnemonicText m).map upper = mnemonicText m := by
  cases m <;> rfl

/-- The mnemonic of the first row with a given text. -/
theorem find_mnemonicText (m : Mnemonic) :
    (opcodeTable.find? fun r => mnemonicText r.mnemonic == mnemonicText m).map Row.mnemonic = some m := by
  cases m <;> rfl

theorem mnemonicText_inj {m m' : Mnemonic} (h : mnemonicText m = mnemonicText m') : m = m' := by
  rw [← Option.some_inj, ← find_mnemonicText m, ← find_mnemonicText m', h]

theorem mem_variants {r : Row} {m : Mnemonic} : r ∈ variants (mnemonicText m) ↔ r ∈ opcodeTable ∧ r.mnemonic = m := by
  simp only [variants, List.mem_filter, map_upper_mnemonicText, beq_iff_eq]
  exact and_congr_right fun _ => ⟨mnemonicText_inj, fun h => by rw [h]⟩

/-- No two rows have one mnemonic and one mode (rule R45). -/
theorem eq_of_mnemonic_of_mode {r q : Row} (hr : r ∈ opcodeTable) (hq : q ∈ opcodeTable)
    (hmnemonic : r.mnemonic = q.mnemonic) (hmode : r.mode = q.mode) : r = q :=
  List.inj_on_of_nodup_map (List.pairwise_map.mpr mnemonicModes_pairwise_ne) hr hq (Prod.ext hmnemonic hmode)

/-- The first match is the one row of the mode that the text has (rule R50). -/
theorem firstMatch_eq {rows : List Row} {t : Text} {r : Row} {o : Operand} (hr : r ∈ rows)
    (hparse : parseOperand r.mode t = some o) (hunique : ∀ q ∈ rows, q.mode = r.mode → q = r) :
    firstMatch rows t = some (r, o) := by
  induction rows with
  | nil => cases hr
  | cons q rest ih =>
    rw [firstMatch]
    cases hq : parseOperand q.mode t with
    | some o' =>
      have hmode : q.mode = r.mode := (modeOfText_of_parseOperand hq).symm.trans (modeOfText_of_parseOperand hparse)
      obtain rfl := hunique q List.mem_cons_self hmode
      cases hq.symm.trans hparse
      rfl
    | none =>
      have hne : r ≠ q := fun h => by rw [← h, hparse] at hq; cases hq
      exact ih (List.mem_of_ne_of_mem hne hr) fun p hp => hunique p (List.mem_cons_of_mem q hp)

/-- A line with a match has the bytes of its row and its operand (rules R48 to R52). -/
theorem assembleLine_of_firstMatch {line code : Text} {r : Row} {o : Operand} (hcode : stripped line = code)
    (hne : code ≠ []) (hmatch : firstMatch (variants (code.takeWhile fun c => !isBlank c))
      (trim (code.dropWhile fun c => !isBlank c)) = some (r, o)) :
    assembleLine line = .ok (r.opcode :: operandBytes o) := by
  unfold assembleLine
  rw [hcode]
  cases code with
  | nil => exact absurd rfl hne
  | cons c rest =>
    cases hrows : variants ((c :: rest).takeWhile fun c => !isBlank c) with
    | nil =>
      rw [hrows] at hmatch
      cases hmatch
    | cons q qs =>
      rw [hrows] at hmatch
      simp only [hrows, hmatch]

/-- A row's words are its opcode byte and the bytes of the operand it builds. -/
theorem encode_build_eq {r : Row} (hr : r ∈ opcodeTable) (b1 b2 : Byte) :
    encode (r.form.build b1 b2) = r.opcode :: operandBytes (operandOf r.mode b1 b2) := by
  rw [← operand_build hr, ← encode_tail, encode_build r hr, List.tail_cons]

theorem assembleLine_build {r : Row} (hr : r ∈ opcodeTable) (b1 b2 : Byte) :
    assembleLine (instrText (r.form.build b1 b2)) = .ok (encode (r.form.build b1 b2)) := by
  have hm : Plain (mnemonicText r.mnemonic) := plain_mnemonicText _
  have ho : Plain (operandText (operandOf r.mode b1 b2)) := plain_operandText _ _ _
  have hne : mnemonicText r.mnemonic ≠ [] := by cases r.mnemonic <;> exact List.cons_ne_nil _ _
  rw [instrText_eq, mnemonic_build hr, operand_build hr, encode_build_eq hr]
  refine assembleLine_of_firstMatch (stripped_lineOf hm ho hne) (lineOf_ne_nil hne) ?_
  rw [takeWhile_lineOf hm, trim_dropWhile_lineOf hm ho]
  refine firstMatch_eq (mem_variants.mpr ⟨hr, rfl⟩) (parseOperand_operandText r.mode b1 b2) fun q hq hmode => ?_
  obtain ⟨hmem, hmnemonic⟩ := mem_variants.mp hq
  exact eq_of_mnemonic_of_mode hmem hr hmnemonic hmode

/-- Settles O60: the row that builds the instruction is the one that the assembler finds, and the words are its opcode
byte and the bytes of the operand. -/
theorem assemblingCanonicalTextRoundTrips : Obligations.AssemblingCanonicalTextRoundTrips := by
  intro i hwf
  obtain ⟨r, hr, b1, b2, rfl⟩ := exists_row_build hwf
  have hmode : r.mode = (r.form.build b1 b2).operand.mode := by rw [operand_build hr, mode_operandOf]
  have hdecode := decodeUndoesEncode _ [] hwf
  rw [List.append_nil, encode_build_eq hr] at hdecode
  exact ⟨assembleLine_build hr b1 b2, _, _, r, encode_build_eq hr b1 b2, dispatchEntry_opcode hr,
    (mnemonic_build hr b1 b2).symm, hmode, hdecode⟩

end Sys2Proof.Machine.Assembler
end
